-- ==== Sys2Proof/Word.lean ====
section
/-!
DEFINITION. The words and small names of the ARCADE-0.245 video core: bytes, command words, pens, colours, the clip
region.
-/

namespace Sys2Proof

/-- One byte, bits 7 down to 0, bit 0 the least significant (00_scope.md R8). -/
abbrev Byte := BitVec 8

/-- A command word `W[39:0]` (30_encoding.md R80). -/
abbrev CommandWord := BitVec 40

/-- A pen index, nine bits, 0..383 of them pens (30_encoding.md R73, 10_state.md R34). -/
abbrev Pen := BitVec 9

/-- A pixel value of the graphics data, 0..3 (10_state.md R24). -/
abbrev Pixel := BitVec 2

/-- A resolved colour, eight bits a channel (40_palette.md R103). -/
structure Rgb where
  r : Byte
  g : Byte
  b : Byte
  deriving DecidableEq, Repr

/-- A clip region: four inclusive bounds in buffer coordinates (42_tilemap.md R145). -/
structure Clip where
  minX : Byte
  maxX : Byte
  minY : Byte
  maxY : Byte
  deriving DecidableEq, Repr

/-- The priority category of a tile (41_tile_decode.md R121). -/
inductive Category where
  /-- Category 0: drawn before the sprites, so below them. -/
  | below
  /-- Category 1: drawn after the sprites, so above them. -/
  | above
  deriving DecidableEq, Repr

/-- The two board variants of the tile attribute decoder (10_state.md R25). -/
inductive Variant where
  | A
  | B
  deriving DecidableEq, Repr

/-- Where the two sub-banks lie in COLOR_PROM (30_encoding.md R70). -/
inductive PromLayout where
  | contiguous
  | interleaved
  deriving DecidableEq, Repr

/-- What a processor address can reach: a byte of a write interface, or a signal of the core (00_scope.md R4). -/
inductive HostPort where
  /-- Tile code memory at an offset. -/
  | tileCode (off : Nat)
  /-- Tile attribute memory at an offset. -/
  | tileAttr (off : Nat)
  /-- The sprite primary table at an offset. -/
  | sprPrimary (off : Nat)
  /-- The sprite secondary table at an offset. -/
  | sprSecondary (off : Nat)
  /-- The video-enable signal. -/
  | videoEnable
  /-- The flip-screen signal. -/
  | flipScreen
  /-- The scanline-position read port. -/
  | scanline
  deriving DecidableEq, Repr

/-- HOST_ADDRESS_MAP: the processor addresses at which those appear, each with what it reaches (00_scope.md R7,
20_memory.md R52). Log entry 21. -/
abbrev HostAddressMap := List (Nat × HostPort)

end Sys2Proof
end

