-- ==== Sys2Proof/Syntax.lean ====
section
/-!
DEFINITION. The twelve commands, one constructor per row of spec/opcode_table.json, with the operands of
30_encoding.md R82 and R83. An index operand (`pen`, `off`) is a natural number, since the command's rule compares it
with the size of a space; its field holds 16 bits (WellFormed.lean).
-/

namespace Sys2Proof

/-- A decoded command (30_encoding.md R83). -/
inductive Instr where
  /-- Palette load (40_palette.md R106). -/
  | pld
  /-- Pen read (40_palette.md R107). -/
  | prd (pen : Nat)
  /-- Tile write code (42_tilemap.md R141). -/
  | twc (off : Nat) (val : Byte)
  /-- Tile write attribute (42_tilemap.md R142). -/
  | twa (off : Nat) (val : Byte)
  /-- Sprite write primary (43_sprites.md R160). -/
  | swp (off : Nat) (val : Byte)
  /-- Sprite write secondary (43_sprites.md R161). -/
  | sws (off : Nat) (val : Byte)
  /-- Video enable (44_frame.md R182). -/
  | ven (f : Bool)
  /-- Flip screen (44_frame.md R183). -/
  | flp (f : Bool)
  /-- Read scanline (44_frame.md R184). -/
  | rsl
  /-- Render frame (44_frame.md R185). -/
  | rfr (c : Clip)
  /-- Tilemap draw of one category (42_tilemap.md R147). -/
  | tmd (cat : Category) (c : Clip)
  /-- Sprite draw (43_sprites.md R166). -/
  | spd (c : Clip)
  deriving DecidableEq, Repr

end Sys2Proof
end

