-- ==== Sys2Proof/WellFormed.lean ====
section
/-!
DEFINITION. Which commands a command word can carry: every operand fits its field (30_encoding.md R81, R82).
A well-formed command may still carry an index outside its space: it decodes, and faults when executed (R86).
-/

namespace Sys2Proof

/-- The 16-bit fields `pen` and `off` hold 0..65535 (30_encoding.md R82). -/
def fitsIndexField (n : Nat) : Bool := decide (n < 65536)

/-- Every operand fits its field; bytes, flags, the category and the clip bounds do so by their types. -/
def Instr.wellFormed : Instr → Bool
  | .pld => true
  | .prd pen => fitsIndexField pen
  | .twc off _ => fitsIndexField off
  | .twa off _ => fitsIndexField off
  | .swp off _ => fitsIndexField off
  | .sws off _ => fitsIndexField off
  | .ven _ => true
  | .flp _ => true
  | .rsl => true
  | .rfr _ => true
  | .tmd _ _ => true
  | .spd _ => true

end Sys2Proof
end

