-- ==== Sys2Proof/Decode.lean ====
section
/-!
DEFINITION. Command words: the decoder, total on every 40-bit word (30_encoding.md R80 to R85), the encoder written from
the same formats, the match and mask table of R84, and the five-byte carriage of 20_memory.md R55.
-/

namespace Sys2Proof

/-- Why a word is no command (30_encoding.md R85). -/
inductive Illegal where
  /-- The opcode byte is not in the map of R83. -/
  | unknownOpcode (op : Byte)
  /-- A field that its format requires to be zero is not. -/
  | nonzeroField (op : Byte)
  deriving DecidableEq, Repr

/-- What the decoder answers: one command with its operands, or the verdict illegal (30_encoding.md R85). -/
inductive Decoded where
  | command (i : Instr)
  | illegal (why : Illegal)
  deriving DecidableEq, Repr

/-! The fields of the five formats (30_encoding.md R81, R82). -/

/-- `W[39:32]`. -/
def opcodeOf (w : CommandWord) : Byte := w.extractLsb' 32 8

/-- `pen = W[15:0]`. -/
def penField (w : CommandWord) : BitVec 16 := w.extractLsb' 0 16

/-- `off = W[23:8]`. -/
def offField (w : CommandWord) : BitVec 16 := w.extractLsb' 8 16

/-- `val = W[7:0]`. -/
def valField (w : CommandWord) : Byte := w.extractLsb' 0 8

/-- `f = W[0]`. -/
def flagField (w : CommandWord) : Bool := w.getLsbD 0

/-- The clip region `(W[31:24], W[23:16], W[15:8], W[7:0])`. -/
def clipField (w : CommandWord) : Clip :=
  ⟨w.extractLsb' 24 8, w.extractLsb' 16 8, w.extractLsb' 8 8, w.extractLsb' 0 8⟩

/-- The zero fields of format N: `W[31:0]`. -/
def zeroN (w : CommandWord) : Bool := decide (w.extractLsb' 0 32 = 0#32)

/-- The zero fields of format P: `W[31:16]`. -/
def zeroP (w : CommandWord) : Bool := decide (w.extractLsb' 16 16 = 0#16)

/-- The zero field of format W: `W[31:24]`. -/
def zeroW (w : CommandWord) : Bool := decide (w.extractLsb' 24 8 = 0#8)

/-- The zero fields of format F: `W[31:1]`. -/
def zeroF (w : CommandWord) : Bool := decide (w.extractLsb' 1 31 = 0#31)

/-- The command `i`, unless a zero field of the word is not zero. -/
def whenZero (w : CommandWord) (zero : Bool) (i : Instr) : Decoded :=
  if zero then .command i else .illegal (.nonzeroField (opcodeOf w))

/-- The decoder: the opcode map of 30_encoding.md R83, illegal words as in R85. -/
def decode (w : CommandWord) : Decoded :=
  if opcodeOf w = 0x01#8 then whenZero w (zeroN w) .pld
  else if opcodeOf w = 0x02#8 then whenZero w (zeroP w) (.prd (penField w).toNat)
  else if opcodeOf w = 0x10#8 then whenZero w (zeroW w) (.twc (offField w).toNat (valField w))
  else if opcodeOf w = 0x11#8 then whenZero w (zeroW w) (.twa (offField w).toNat (valField w))
  else if opcodeOf w = 0x20#8 then whenZero w (zeroW w) (.swp (offField w).toNat (valField w))
  else if opcodeOf w = 0x21#8 then whenZero w (zeroW w) (.sws (offField w).toNat (valField w))
  else if opcodeOf w = 0x30#8 then whenZero w (zeroF w) (.ven (flagField w))
  else if opcodeOf w = 0x31#8 then whenZero w (zeroF w) (.flp (flagField w))
  else if opcodeOf w = 0x32#8 then whenZero w (zeroN w) .rsl
  else if opcodeOf w = 0x40#8 then .command (.rfr (clipField w))
  else if opcodeOf w = 0x42#8 then .command (.tmd .below (clipField w))
  else if opcodeOf w = 0x43#8 then .command (.tmd .above (clipField w))
  else if opcodeOf w = 0x44#8 then .command (.spd (clipField w))
  else .illegal (.unknownOpcode (opcodeOf w))

/-! The encoder, one function per format (30_encoding.md R81). -/

/-- Format N: the opcode, no operand. -/
def formatN (op : Byte) : CommandWord := op ++ 0#32

/-- Format P: a pen index. -/
def formatP (op : Byte) (pen : Nat) : CommandWord := op ++ 0#16 ++ BitVec.ofNat 16 pen

/-- Format W: an offset and a byte. -/
def formatW (op : Byte) (off : Nat) (val : Byte) : CommandWord := op ++ 0#8 ++ BitVec.ofNat 16 off ++ val

/-- Format F: one flag bit. -/
def formatF (op : Byte) (f : Bool) : CommandWord := op ++ 0#31 ++ BitVec.ofBool f

/-- Format C: a clip region. -/
def formatC (op : Byte) (c : Clip) : CommandWord := op ++ c.minX ++ c.maxX ++ c.minY ++ c.maxY

/-- The word of a well-formed command (30_encoding.md R81, R83). -/
def encode : Instr → CommandWord
  | .pld => formatN 0x01#8
  | .prd pen => formatP 0x02#8 pen
  | .twc off val => formatW 0x10#8 off val
  | .twa off val => formatW 0x11#8 off val
  | .swp off val => formatW 0x20#8 off val
  | .sws off val => formatW 0x21#8 off val
  | .ven f => formatF 0x30#8 f
  | .flp f => formatF 0x31#8 f
  | .rsl => formatN 0x32#8
  | .rfr c => formatC 0x40#8 c
  | .tmd .below c => formatC 0x42#8 c
  | .tmd .above c => formatC 0x43#8 c
  | .spd c => formatC 0x44#8 c

/-! The match and mask of every row (30_encoding.md R84). -/

/-- One row of the opcode table. -/
structure OpcodeRow where
  mnemonic : String
  pattern : CommandWord
  mask : CommandWord
  deriving DecidableEq, Repr

/-- A word selects a row when the masked word is the row's match value (30_encoding.md R84). -/
def OpcodeRow.selects (r : OpcodeRow) (w : CommandWord) : Bool := decide (w &&& r.mask = r.pattern)

/-- The row of a command (30_encoding.md R84). -/
def Instr.row : Instr → OpcodeRow
  | .pld => ⟨"PLD", 0x0100000000#40, 0xFFFFFFFFFF#40⟩
  | .prd _ => ⟨"PRD", 0x0200000000#40, 0xFFFFFF0000#40⟩
  | .twc _ _ => ⟨"TWC", 0x1000000000#40, 0xFFFF000000#40⟩
  | .twa _ _ => ⟨"TWA", 0x1100000000#40, 0xFFFF000000#40⟩
  | .swp _ _ => ⟨"SWP", 0x2000000000#40, 0xFFFF000000#40⟩
  | .sws _ _ => ⟨"SWS", 0x2100000000#40, 0xFFFF000000#40⟩
  | .ven _ => ⟨"VEN", 0x3000000000#40, 0xFFFFFFFFFE#40⟩
  | .flp _ => ⟨"FLP", 0x3100000000#40, 0xFFFFFFFFFE#40⟩
  | .rsl => ⟨"RSL", 0x3200000000#40, 0xFFFFFFFFFF#40⟩
  | .rfr _ => ⟨"RFR", 0x4000000000#40, 0xFF00000000#40⟩
  | .tmd _ _ => ⟨"TMD", 0x4200000000#40, 0xFE00000000#40⟩
  | .spd _ => ⟨"SPD", 0x4400000000#40, 0xFF00000000#40⟩

/-- One command of each row; the operands do not matter. -/
def rowSamples : List Instr :=
  [.pld, .prd 0, .twc 0 0, .twa 0 0, .swp 0 0, .sws 0 0, .ven false, .flp false, .rsl,
   .rfr ⟨0, 0, 0, 0⟩, .tmd .below ⟨0, 0, 0, 0⟩, .spd ⟨0, 0, 0, 0⟩]

/-- The twelve rows of the opcode table (30_encoding.md R84). -/
def opcodeTable : List OpcodeRow := rowSamples.map Instr.row

/-! The five-byte carriage of a command word (20_memory.md R55). -/

/-- The five bytes of a word, the opcode byte first. -/
def wordBytes (w : CommandWord) : List Byte :=
  [w.extractLsb' 32 8, w.extractLsb' 24 8, w.extractLsb' 16 8, w.extractLsb' 8 8, w.extractLsb' 0 8]

/-- The first word of a byte stream and the bytes after it; `none` when fewer than five bytes are left. -/
def takeWord : List Byte → Option (CommandWord × List Byte)
  | b4 :: b3 :: b2 :: b1 :: b0 :: rest => some (b4 ++ b3 ++ b2 ++ b1 ++ b0, rest)
  | _ => none

/-- Decode the first command of a byte stream; `none` when the stream holds no whole word. -/
def decodeBytes (bs : List Byte) : Option (Decoded × List Byte) :=
  match takeWord bs with
  | some (w, rest) => some (decode w, rest)
  | none => none

/-- The word whose bits are `w`, numbered as the opcode table numbers them: bit 0 is `W[0]`. -/
def tableWord (nbits w : Nat) : CommandWord := BitVec.ofNat 40 (w % 2 ^ nbits)

/-- What the decoder reads from a word given by its opcode-table bits, through the five-byte carriage; `none` where it
refuses. -/
def decodeTableWord (nbits w : Nat) : Option Instr :=
  match decodeBytes (wordBytes (tableWord nbits w)) with
  | some (.command i, _) => some i
  | _ => none

end Sys2Proof
end

