-- ==== Sys2Proof/Config.lean ====
section
/-!
DEFINITION. The parameters of 00_scope.md R7 and the free values. A parameter with no default, and a value the spec
leaves free, is an opaque constant: nothing can be proved about it, so a claim that uses it holds whatever it is. A
parameter with a default has the spec's default here; State.board holds the value a machine was configured with, so
that a claim over every state is a claim over every configuration.
-/

namespace Sys2Proof

/-- COLOR_PROM, byte by byte: a parameter that must be supplied (00_scope.md R7). FREE VALUE, log entry 9. -/
opaque Config.colorProm : Nat → Byte

/-- LOOKUP, byte by byte: a parameter that must be supplied (00_scope.md R7). FREE VALUE, log entry 9. -/
opaque Config.lookup : Nat → Byte

/-- CHAR_GFX(code, px, py): a parameter that must be supplied (10_state.md R24). FREE VALUE, log entry 9. -/
opaque Config.charGfx : Nat → Nat → Nat → Pixel

/-- SPRITE_GFX(code, px, py): a parameter that must be supplied (10_state.md R24). FREE VALUE, log entry 9. -/
opaque Config.spriteGfx : Nat → Nat → Nat → Pixel

/-- The SCANLINE oracle: the n-th draw is any value in 0..255, under no law (60_exceptions.md R214).
FREE VALUE, log entry 10. -/
opaque Config.scanline : Nat → Byte

/-- RESET_VIDEO_ENABLE: either value (00_scope.md R7, 10_state.md R36). FREE VALUE, log entry 8. -/
opaque Config.resetVideoEnable : Bool

/-- flipScreen after reset: either value (10_state.md R36). FREE VALUE, log entry 8. -/
opaque Config.resetFlipScreen : Bool

/-- HOST_ADDRESS_MAP: platform data, left open and used by no rule (00_scope.md R7, 20_memory.md R52, D30). FREE VALUE,
log entry 21. -/
opaque Config.hostAddressMap : HostAddressMap

/-- The default variant (00_scope.md R7, D26). Log entry 11. -/
def Config.variant : Variant := .A

/-- The default PROM layout (00_scope.md R7, D3). Log entry 11. -/
def Config.promLayout : PromLayout := .contiguous

/-- The default sprite width in pixels (00_scope.md R7, D11). Log entry 11. -/
def Config.spriteW : Nat := 16

/-- The default sprite height in pixels (00_scope.md R7, D11). Log entry 11. -/
def Config.spriteH : Nat := 16

end Sys2Proof
end

