-- ==== Sys2Proof/Machine/Store.lean ====
section
/-!
DEFINITION. Memory as plain data: a list of (index, value) pairs in one canonical form, for byte spaces (its cells are then
Host.Cell), for the frame buffer's pens and for the decode cache's records. Indices strictly rise, and no listed value
equals what an unlisted index reads as.
-/

namespace Sys2Proof.Machine

/-- A sparse array with values in `α`. -/
abbrev Store (α : Type) := List (Nat × α)

/-- The value listed at index `k`, if one is. -/
def Store.find? {α : Type} : Store α → Nat → Option α
  | [], _ => none
  | (k', v) :: m, k => if k = k' then some v else Store.find? m k

/-- The value at index `k`; an unlisted index reads as `d`. -/
def Store.read {α : Type} (d : α) (m : Store α) (k : Nat) : α := (Store.find? m k).getD d

/-- The store with nothing listed at index `k`. -/
def Store.erase {α : Type} : Store α → Nat → Store α
  | [], _ => []
  | (k', v) :: m, k => if k = k' then Store.erase m k else (k', v) :: Store.erase m k

/-- The store with `v` listed at index `k`, in its place by index. -/
def Store.insert {α : Type} : Store α → Nat → α → Store α
  | [], k, v => [(k, v)]
  | (k', v') :: m, k, v =>
    if k < k' then (k, v) :: (k', v') :: m
    else if k = k' then (k, v) :: m
    else (k', v') :: Store.insert m k v

/-- Write `v` at index `k`, keeping the canonical form: writing `d`, which an unlisted index reads as, removes the
entry. -/
def Store.write {α : Type} [DecidableEq α] (d : α) (m : Store α) (k : Nat) (v : α) : Store α :=
  if v = d then Store.erase m k else Store.insert m k v

/-- Every listed index is at least `lo`, below `n`, and above the one before it; no listed value is `d`. -/
def Store.wfFrom {α : Type} [DecidableEq α] (d : α) (n : Nat) : Nat → Store α → Bool
  | _, [] => true
  | lo, (k, v) :: m => decide (lo ≤ k) && decide (k < n) && decide (v ≠ d) && Store.wfFrom d n (k + 1) m

/-- The canonical form of a store of the space with indices 0..n-1. -/
def Store.wf {α : Type} [DecidableEq α] (d : α) (n : Nat) (m : Store α) : Bool := Store.wfFrom d n 0 m

end Sys2Proof.Machine
end

