-- ==== Sys2Proof/Machine/State.lean ====
section
/-!
DEFINITION. The state of the core, the tuple of 10_state.md R22, with the run's command stream, responses and fault mark
(70_reset_and_hazards.md R245, 60_exceptions.md R206), the faults, and the state after reset (10_state.md R36).
-/

namespace Sys2Proof.Machine

/-- The address spaces an AddressingFault can name (20_memory.md R50). -/
inductive Space where
  /-- Tile code memory. -/
  | TC
  /-- Tile attribute memory. -/
  | TA
  /-- Sprite primary table. -/
  | SP
  /-- Sprite secondary table. -/
  | SS
  /-- Pen table. -/
  | PT
  deriving DecidableEq, Repr

/-- The faults of 60_exceptions.md R200 to R203, each with its recorded value. A faulting command answers a NEXT state
whose last response is the fault (R205, R206): `step` never stops the machine with one. -/
inductive Fault where
  /-- Raised by the decoder on a word that is no command (R200). Safe: the state of the core is unchanged. -/
  | illegalCommand (word : CommandWord)
  /-- Raised by TWC, TWA, SWP, SWS and PRD on an index outside the space (R201). Safe: the state of the core is
  unchanged. -/
  | addressing (space : Space) (index : Nat)
  /-- Raised by PLD; each PROM blob of the wrong size is recorded with its length (R202). Safe: the state of the core is
  unchanged. -/
  | configuration (colorPromLen lookupLen : Option Nat)
  /-- Raised by PRD, TMD, SPD and RFR while no PLD has completed (R203). Safe: the state of the core is unchanged. -/
  | paletteNotBuilt
  deriving DecidableEq, Repr

/-- What `exec` can decline. No instruction of this model does. -/
inductive Refusal where
  /-- An instruction the model has no meaning for; raised by an arm of `exec` alone. Safe: the run stops. No arm
  raises it. -/
  | notModelled (mnemonic : String)
  deriving DecidableEq, Repr

/-- What the core sends back to the host (30_encoding.md R87, 60_exceptions.md R205). -/
inductive Response where
  /-- PRD: a colour as the 24-bit word {r, g, b}. -/
  | pen (rgb : BitVec 24)
  /-- RSL: a raster line. -/
  | scanline (line : Byte)
  /-- A fault, in place of any value. -/
  | fault (f : Fault)
  deriving DecidableEq, Repr

/-- A decoded tile (41_tile_decode.md R121). -/
structure DecodedTile where
  graphicsCode : Nat
  colorGroup : Nat
  flipX : Bool
  flipY : Bool
  priorityCategory : Category
  deriving DecidableEq, Repr

/-- What an unlisted entry of the decode cache holds: all fields zero. Log entry 7. -/
def DecodedTile.zero : DecodedTile := ⟨0, 0, false, false, .below⟩

/-- A PROM blob as the asset loader supplies it (10_state.md R23): its length in bytes, and the bytes this state names; an
unnamed byte is the configured parameter. -/
structure Blob where
  size : Nat
  named : Store Byte
  deriving DecidableEq, Repr

/-- A frame buffer, row by row: for each listed row y the pens listed in it by x. A row with nothing listed is not
listed. -/
abbrev Buffer := Store (Store Pen)

/-- The read-only part of the state: the ROMs and straps of 10_state.md R22 to R25 and the parameters of 00_scope.md R7.
No command writes any of it. -/
structure Board where
  /-- VARIANT (R25). -/
  variant : Variant
  /-- PROM_LAYOUT (30_encoding.md R70). -/
  promLayout : PromLayout
  /-- SPRITE_W, a positive number of pixels (00_scope.md R7). -/
  spriteW : Nat
  /-- SPRITE_H, a positive number of pixels (00_scope.md R7). -/
  spriteH : Nat
  /-- COLOR_PROM, 64 bytes where PLD is to complete (R23); unnamed bytes are `Config.colorProm`. -/
  colorProm : Blob
  /-- LOOKUP, 384 bytes where PLD is to complete (R23); unnamed bytes are `Config.lookup`. -/
  lookup : Blob
  /-- CHAR_GFX (R24): the pixels this state names, by the index `Board.charIndex`; the rest are `Config.charGfx`. -/
  charGfx : Store Pixel
  /-- SPRITE_GFX (R24): the pixels this state names, by the index `Board.spriteIndex`; the rest are
  `Config.spriteGfx`. -/
  spriteGfx : Store Pixel
  /-- HOST_ADDRESS_MAP (00_scope.md R7): platform data that no rule reads, since the core sees offsets (20_memory.md
  R52). -/
  hostAddressMap : HostAddressMap
  deriving DecidableEq, Repr

/-- The machine: the core's state (10_state.md R22), then the run's. -/
structure State where
  /-- The ROMs and straps (R22). -/
  board : Board
  /-- BASE, 32 colours (R26). -/
  base : List Rgb
  /-- PEN, 384 colours (R26). -/
  pen : List Rgb
  /-- 1 when PEN holds a derived table (R26). -/
  penValid : Bool
  /-- Space TC, 1024 bytes (R27). -/
  tileCode : Store Byte
  /-- Space TA, 1024 bytes (R27). -/
  tileAttr : Store Byte
  /-- 1024 dirty bits, one a tile; an unlisted bit is 1, its reset value (R28, R36). -/
  dirty : Store Bool
  /-- 1024 decoded tiles, one a tile, meaningful where the dirty bit is 0 (R28). -/
  cache : Store DecodedTile
  /-- Space SP, 64 bytes (R29). -/
  sprPrimary : Store Byte
  /-- Space SS, 64 bytes (R29). -/
  sprSecondary : Store Byte
  /-- R30. -/
  videoEnable : Bool
  /-- R31. -/
  flipScreen : Bool
  /-- FB, 256 × 256 pens, by row and column (R34). -/
  fb : Buffer
  /-- The command words the host has issued that the core has not yet executed, oldest first (R21, R245). -/
  pending : List CommandWord
  /-- The responses so far, oldest first (R245). -/
  responses : List Response
  /-- The sticky mark of a run with a fault in it (60_exceptions.md R206). -/
  faultMark : Bool
  /-- The model's own: how often the SCANLINE oracle has been asked (44_frame.md R184). -/
  scanDraws : Nat
  deriving DecidableEq, Repr

/-- What a byte of TC, TA, SP or SS that nothing has written reads as. DESIGN CHOICE, log entry 4. -/
def unwrittenByte : Byte := 0#8

/-- What a pixel of FB that nothing has written holds. DESIGN CHOICE, log entry 5. -/
def unwrittenPixel : Pen := 0#9

/-- The board as configured: the parameters of 00_scope.md R7. -/
def Board.configured : Board where
  variant := Config.variant
  promLayout := Config.promLayout
  spriteW := Config.spriteW
  spriteH := Config.spriteH
  colorProm := ⟨64, []⟩
  lookup := ⟨384, []⟩
  charGfx := []
  spriteGfx := []
  hostAddressMap := Config.hostAddressMap

/-- The machine right after reset (10_state.md R36, 70_reset_and_hazards.md R230): penValid 0, every dirty bit 1. What
R36 leaves unspecified has the values of log entries 4 to 8; the predicate `State.AfterReset` of Safety.lean is R36
itself. -/
def State.reset : State where
  board := Board.configured
  base := List.replicate 32 ⟨0#8, 0#8, 0#8⟩
  pen := List.replicate 384 ⟨0#8, 0#8, 0#8⟩
  penValid := false
  tileCode := []
  tileAttr := []
  dirty := []
  cache := []
  sprPrimary := []
  sprSecondary := []
  videoEnable := Config.resetVideoEnable
  flipScreen := Config.resetFlipScreen
  fb := []
  pending := []
  responses := []
  faultMark := false
  scanDraws := 0

end Sys2Proof.Machine
end

