-- ==== Sys2Proof/Machine/Ops.lean ====
section
/-!
DEFINITION. The named operations over memory, the frame buffer, the responses and the command stream, and taking a fault.
Every read and write of a space goes through one of these.
-/

namespace Sys2Proof.Machine

/-! ## Responses and faults -/

/-- `respond(v)` (00_scope.md R10, 30_encoding.md R87). -/
def State.respond (s : State) (r : Response) : State := { s with responses := s.responses ++ [r] }

/-- Taking a fault: the fault is the command's response, the run is marked, and nothing else changes
(60_exceptions.md R205, R206). There is no trap entry and no return from one (R210, R211): no handler, mode or program
counter exists, so the next command simply follows. -/
def State.takeFault (s : State) (f : Fault) : State :=
  { s with responses := s.responses ++ [.fault f], faultMark := true }

/-- `raise f`: the command ends in the fault (00_scope.md R10). -/
def raise (f : Fault) (s : State) : Host.Outcome State Fault Refusal := .next (s.takeFault f)

/-! ## The byte spaces (20_memory.md R50): `MemRead` and `MemWrite` of 00_scope.md R10 -/

/-- `MemRead(CP:i, 1)`. -/
def Board.readCP (b : Board) (i : Nat) : Byte := (Store.find? b.colorProm.named i).getD (Config.colorProm i)

/-- `MemRead(LK:i, 1)`. -/
def Board.readLK (b : Board) (i : Nat) : Byte := (Store.find? b.lookup.named i).getD (Config.lookup i)

/-- `MemRead(TC:t, 1)`. -/
def State.readTC (s : State) (t : Nat) : Byte := Store.read unwrittenByte s.tileCode t

/-- `MemRead(TA:t, 1)`. -/
def State.readTA (s : State) (t : Nat) : Byte := Store.read unwrittenByte s.tileAttr t

/-- `MemRead(SP:o, 1)`. -/
def State.readSP (s : State) (o : Nat) : Byte := Store.read unwrittenByte s.sprPrimary o

/-- `MemRead(SS:o, 1)`. -/
def State.readSS (s : State) (o : Nat) : Byte := Store.read unwrittenByte s.sprSecondary o

/-- `MemWrite(TC:t, 1, v)`. -/
def State.writeTC (s : State) (t : Nat) (v : Byte) : State :=
  { s with tileCode := Store.write unwrittenByte s.tileCode t v }

/-- `MemWrite(TA:t, 1, v)`. -/
def State.writeTA (s : State) (t : Nat) (v : Byte) : State :=
  { s with tileAttr := Store.write unwrittenByte s.tileAttr t v }

/-- `MemWrite(SP:o, 1, v)`. -/
def State.writeSP (s : State) (o : Nat) (v : Byte) : State :=
  { s with sprPrimary := Store.write unwrittenByte s.sprPrimary o v }

/-- `MemWrite(SS:o, 1, v)`. -/
def State.writeSS (s : State) (o : Nat) (v : Byte) : State :=
  { s with sprSecondary := Store.write unwrittenByte s.sprSecondary o v }

/-! ## The graphics data (10_state.md R24) -/

/-- The index of character pixel (code, px, py) in `Board.charGfx`. -/
def Board.charIndex (code px py : Nat) : Nat := 64 * code + 8 * py + px

/-- `CHAR_GFX(code, px, py)`. -/
def Board.charPixel (b : Board) (code px py : Nat) : Pixel :=
  (Store.find? b.charGfx (Board.charIndex code px py)).getD (Config.charGfx code px py)

/-- The index of sprite pixel (code, px, py) in `Board.spriteGfx`. -/
def Board.spriteIndex (b : Board) (code px py : Nat) : Nat := b.spriteW * (b.spriteH * code + py) + px

/-- `SPRITE_GFX(code, px, py)`. -/
def Board.spritePixel (b : Board) (code px py : Nat) : Pixel :=
  (Store.find? b.spriteGfx (b.spriteIndex code px py)).getD (Config.spriteGfx code px py)

/-! ## The tables: pens and the decode cache -/

/-- Entry i of a colour table. -/
def tableColor (table : List Rgb) (i : Nat) : Rgb := table.getD i ⟨0#8, 0#8, 0#8⟩

/-- `BASE[i]`. -/
def State.baseColor (s : State) (i : Nat) : Rgb := tableColor s.base i

/-- `PEN[p]`. -/
def State.penColor (s : State) (p : Nat) : Rgb := tableColor s.pen p

/-- `cache[t]`. -/
def State.cachedTile (s : State) (t : Nat) : DecodedTile := Store.read DecodedTile.zero s.cache t

/-- `cache[t] <- d`. -/
def State.writeCache (s : State) (t : Nat) (d : DecodedTile) : State :=
  { s with cache := Store.write DecodedTile.zero s.cache t d }

/-! ## The frame buffer (10_state.md R34) -/

/-- Row y of a buffer. -/
def bufferRow (fb : Buffer) (y : Nat) : Store Pen := Store.read [] fb y

/-- `FB(x, y)` of a buffer. -/
def readPixel (fb : Buffer) (x y : Nat) : Pen := Store.read unwrittenPixel (bufferRow fb y) x

/-- `FBWrite(x, y, p)` on a buffer. -/
def writePixel (fb : Buffer) (x y : Nat) (p : Pen) : Buffer :=
  Store.write [] fb y (Store.write unwrittenPixel (bufferRow fb y) x p)

/-- The canonical form of a buffer: of its list of rows and of every row. -/
def Buffer.wf (fb : Buffer) : Bool := Store.wf [] 256 fb && fb.all (fun e => Store.wf unwrittenPixel 256 e.2)

/-- `FB(x, y)`. -/
def State.pixel (s : State) (x y : Nat) : Pen := readPixel s.fb x y

/-- `inClip(c, x, y)` (42_tilemap.md R145): both bounds inclusive. -/
def inClip (c : Clip) (x y : Int) : Bool :=
  decide ((c.minX.toNat : Int) ≤ x) && decide (x ≤ (c.maxX.toNat : Int)) &&
  (decide ((c.minY.toNat : Int) ≤ y) && decide (y ≤ (c.maxY.toNat : Int)))

/-- Write one pixel of a drawing, if it is inside the clip and opaque. -/
def plot (c : Clip) (x y : Int) (p : Option Pen) (fb : Buffer) : Buffer :=
  if inClip c x y then
    match p with
    | some v => writePixel fb x.toNat y.toNat v
    | none => fb
  else fb

/-- The positions (dx, dy) of a w × h block, row by row: `for dy in 0 .. h-1: for dx in 0 .. w-1`. -/
def blockCells (w h : Nat) : List (Nat × Nat) :=
  (List.range h).flatMap (fun dy => (List.range w).map (fun dx => (dx, dy)))

/-- Draw a w × h block whose lowest corner is (x, y), clipped to c; `paint dx dy` is the pen at a position, `none` where
it is transparent (the loops of 42_tilemap.md R147 and 43_sprites.md R164). -/
def blit (c : Clip) (x y : Int) (w h : Nat) (paint : Nat → Nat → Option Pen) (fb : Buffer) : Buffer :=
  (blockCells w h).foldl (fun fb p => plot c (x + p.1) (y + p.2) (paint p.1 p.2) fb) fb

/-! ## The command stream (10_state.md R21, 20_memory.md R57) -/

/-- Take the next command word the host has issued; `none` when there is none (70_reset_and_hazards.md R245). -/
def State.takeCommand (s : State) : Option (CommandWord × State) :=
  match s.pending with
  | [] => none
  | w :: rest => some (w, { s with pending := rest })

/-- The host issues a command word, after those already issued (20_memory.md R57). -/
def State.issue (s : State) (w : CommandWord) : State := { s with pending := s.pending ++ [w] }

/-- The command word `w` placed so that it is the next one taken. -/
def State.placeCommand (s : State) (w : CommandWord) : State := { s with pending := w :: s.pending }

end Sys2Proof.Machine
end

