-- ==== Sys2Proof/Machine/Flags.lean ====
section
/-!
DEFINITION. The flags of 10_state.md R33: the dirty bits, penValid's guard, and the two latches. The core has no condition
codes.
-/

namespace Sys2Proof.Machine

/-- `dirty[t] = 1`. -/
def State.isDirty (s : State) (t : Nat) : Bool := Store.read true s.dirty t

/-- `dirty[t] <- 1` (42_tilemap.md R141, R142). -/
def State.markDirty (s : State) (t : Nat) : State := { s with dirty := Store.write true s.dirty t true }

/-- `dirty[t] <- 0` (42_tilemap.md R146). -/
def State.markClean (s : State) (t : Nat) : State := { s with dirty := Store.write true s.dirty t false }

/-- `videoEnable <- f` (10_state.md R30). -/
def State.setVideoEnable (s : State) (f : Bool) : State := { s with videoEnable := f }

/-- `flipScreen <- f` (10_state.md R31). -/
def State.setFlipScreen (s : State) (f : Bool) : State := { s with flipScreen := f }

/-- `if penValid = 0: raise PaletteNotBuilt()`, else go on (60_exceptions.md R203). -/
def whenPaletteBuilt (s : State) (go : Host.Outcome State Fault Refusal) : Host.Outcome State Fault Refusal :=
  if s.penValid then go else raise .paletteNotBuilt s

/-- `if index >= size: raise AddressingFault(space, index)`, else go on (60_exceptions.md R201). -/
def whenInSpace (space : Space) (size index : Nat) (s : State) (go : Host.Outcome State Fault Refusal) :
    Host.Outcome State Fault Refusal :=
  if index < size then go else raise (.addressing space index) s

end Sys2Proof.Machine
end

