-- ==== Sys2Proof/Machine/Operands.lean ====
section
/-!
DEFINITION. The operand assemblies of the core's own data (30_encoding.md R82): the tile attribute decoder, the geometry of
tiles and clip regions, and the resolving of a sprite slot. Arithmetic is over the integers (00_scope.md R9).
-/

namespace Sys2Proof.Machine

/-- The priority category that a bit 0 or 1 stands for (41_tile_decode.md R121). -/
def categoryOf (bit : Bool) : Category := if bit then .above else .below

/-! ## The tile attribute decoder -/

/-- `DecodeA(c, a)` (41_tile_decode.md R122). -/
def decodeA (c a : Byte) : DecodedTile where
  graphicsCode := c.toNat + 8 * (a &&& 0x20#8).toNat
  colorGroup := (a &&& 0x1F#8).toNat
  flipX := a.getLsbD 6
  flipY := a.getLsbD 7
  priorityCategory := categoryOf (a.getLsbD 4)

/-- `DecodeB(c, a)` (41_tile_decode.md R123). -/
def decodeB (c a : Byte) : DecodedTile where
  graphicsCode := c.toNat + 8 * (a &&& 0x60#8).toNat
  colorGroup := (a &&& 0x1F#8).toNat
  flipX := false
  flipY := false
  priorityCategory := categoryOf (a.getLsbD 7)

/-- `DecodeTile(variant, c, a)` (41_tile_decode.md R120). -/
def decodeTile (v : Variant) (c a : Byte) : DecodedTile :=
  match v with
  | .A => decodeA c a
  | .B => decodeB c a

/-- `TileAt(t)`: the decode of the bytes now in memory (41_tile_decode.md R120). -/
def State.tileAt (s : State) (t : Nat) : DecodedTile := decodeTile s.board.variant (s.readTC t) (s.readTA t)

/-! ## Tiles and clip regions -/

/-- `col(t) = t mod 32` (42_tilemap.md R144). -/
def tileCol (t : Nat) : Nat := t % 32

/-- `row(t) = t div 32` (42_tilemap.md R144). -/
def tileRow (t : Nat) : Nat := t / 32

/-- The one tile that covers pixel (x, y) (44_frame.md R187). -/
def tileCovering (x y : Nat) : Nat := 32 * (y / 8) + x / 8

/-- `TileMeets(t, c)` (42_tilemap.md R145). -/
def tileMeets (t : Nat) (c : Clip) : Bool :=
  decide (8 * tileCol t ≤ c.maxX.toNat) && decide (c.minX.toNat ≤ 8 * tileCol t + 7) &&
  decide (8 * tileRow t ≤ c.maxY.toNat) && decide (c.minY.toNat ≤ 8 * tileRow t + 7) &&
  decide (c.minX.toNat ≤ c.maxX.toNat) && decide (c.minY.toNat ≤ c.maxY.toNat)

/-- The mirrored coordinate of a cell of a block n wide, where the flip is set (decision D12 of spec/92). -/
def mirrored (flip : Bool) (n d : Nat) : Nat := if flip then n - 1 - d else d

/-- `TilePen(d, dx, dy)` (42_tilemap.md R143). -/
def tilePen (b : Board) (d : DecodedTile) (dx dy : Nat) : Nat :=
  4 * d.colorGroup + (b.charPixel d.graphicsCode (mirrored d.flipX 8 dx) (mirrored d.flipY 8 dy)).toNat

/-! ## Sprite slots -/

/-- A resolved sprite (43_sprites.md R163); `y` is signed, -14..241. -/
structure Sprite where
  x : Nat
  y : Int
  graphicsCode : Nat
  colorGroup : Nat
  flipX : Bool
  flipY : Bool
  deriving DecidableEq, Repr

/-- The sprite of four slot bytes (43_sprites.md R163). -/
def resolveSprite (p0 p1 s0 s1 : Byte) : Sprite where
  x := p0.toNat
  y := 241 - (s1.toNat : Int)
  graphicsCode := p1.toNat
  colorGroup := (s0 &&& 0x3F#8).toNat
  flipX := !(s0.getLsbD 6)
  flipY := s0.getLsbD 7

/-- `SpriteAt(o)` (43_sprites.md R163). -/
def State.spriteAt (s : State) (o : Nat) : Sprite :=
  resolveSprite (s.readSP o) (s.readSP (o + 1)) (s.readSS o) (s.readSS (o + 1))

/-- The pixel value of sprite p at (dx, dy) inside its cell (43_sprites.md R164). -/
def spriteValue (b : Board) (p : Sprite) (dx dy : Nat) : Pixel :=
  b.spritePixel p.graphicsCode (mirrored p.flipX b.spriteW dx) (mirrored p.flipY b.spriteH dy)

/-- The pen of a pixel value of sprite p (30_encoding.md R73). -/
def spritePen (p : Sprite) (pix : Pixel) : Nat := 128 + 4 * p.colorGroup + pix.toNat

end Sys2Proof.Machine
end

