-- ==== Sys2Proof/Machine/Sprites.lean ====
section
/-!
DEFINITION. The sprite family, the document's Sprite Compositor: SWP, SWS and SPD (43_sprites.md).
-/

namespace Sys2Proof.Machine

/-- SWP off, val (43_sprites.md R160). -/
def execSwp (off : Nat) (val : Byte) (s : State) : Host.Outcome State Fault Refusal :=
  whenInSpace .SP 64 off s (.next (s.writeSP off val))

/-- SWS off, val (43_sprites.md R161). -/
def execSws (off : Nat) (val : Byte) (s : State) : Host.Outcome State Fault Refusal :=
  whenInSpace .SS 64 off s (.next (s.writeSS off val))

/-- What sprite p paints at (dx, dy) of its cell: pixel value 0 is transparent (43_sprites.md R164). -/
def spritePaint (b : Board) (p : Sprite) (dx dy : Nat) : Option Pen :=
  if spriteValue b p dx dy = 0#2 then none else some (BitVec.ofNat 9 (spritePen p (spriteValue b p dx dy)))

/-- `BlitSprite(SpriteAt(o), c)` (43_sprites.md R164). -/
def State.blitSprite (c : Clip) (s : State) (o : Nat) : State :=
  { s with
    fb := blit c ((s.spriteAt o).x : Int) (s.spriteAt o).y s.board.spriteW s.board.spriteH
      (spritePaint s.board (s.spriteAt o)) s.fb }

/-- The 24 slots in the order they are drawn (43_sprites.md R165, R166). -/
def spriteSlots : List Nat :=
  [0x3e, 0x3c, 0x3a, 0x38, 0x36, 0x34, 0x32, 0x30, 0x2e, 0x2c, 0x2a, 0x28,
   0x26, 0x24, 0x22, 0x20, 0x1e, 0x1c, 0x1a, 0x18, 0x16, 0x14, 0x12, 0x10]

/-- The body of SPD after its check (43_sprites.md R166). -/
def drawSprites (c : Clip) (s : State) : State := spriteSlots.foldl (State.blitSprite c) s

/-- SPD c (43_sprites.md R166). -/
def execSpd (c : Clip) (s : State) : Host.Outcome State Fault Refusal :=
  whenPaletteBuilt s (.next (drawSprites c s))

end Sys2Proof.Machine
end

