-- ==== Sys2Proof/Machine/Tilemap.lean ====
section
/-!
DEFINITION. The tilemap family, the document's Tilemap Surface: TWC, TWA and TMD (42_tilemap.md).
-/

namespace Sys2Proof.Machine

/-- TWC off, val (42_tilemap.md R141). -/
def execTwc (off : Nat) (val : Byte) (s : State) : Host.Outcome State Fault Refusal :=
  whenInSpace .TC 1024 off s (.next ((s.writeTC off val).markDirty off))

/-- TWA off, val (42_tilemap.md R142). -/
def execTwa (off : Nat) (val : Byte) (s : State) : Host.Outcome State Fault Refusal :=
  whenInSpace .TA 1024 off s (.next ((s.writeTA off val).markDirty off))

/-- `Refresh(t)`, the state after it (42_tilemap.md R146); what it returns is then `cachedTile t`. -/
def State.refresh (s : State) (t : Nat) : State :=
  if s.isDirty t then (s.writeCache t (s.tileAt t)).markClean t else s

/-- Blit the 8 × 8 block of tile t, decoded as d, clipped to c; every pixel is opaque (42_tilemap.md R147, R150). -/
def State.blitTile (s : State) (c : Clip) (t : Nat) (d : DecodedTile) : State :=
  { s with
    fb := blit c ((8 * tileCol t : Nat) : Int) ((8 * tileRow t : Nat) : Int) 8 8
      (fun dx dy => some (BitVec.ofNat 9 (tilePen s.board d dx dy))) s.fb }

/-- One tile of the draw: refresh it, and blit it if it is of the category (42_tilemap.md R147). -/
def drawTile (cat : Category) (c : Clip) (s : State) (t : Nat) : State :=
  if ((s.refresh t).cachedTile t).priorityCategory = cat then
    (s.refresh t).blitTile c t ((s.refresh t).cachedTile t)
  else s.refresh t

/-- The tiles that meet c, in rising order (42_tilemap.md R147). -/
def tilesMeeting (c : Clip) : List Nat := (List.range 1024).filter (fun t => tileMeets t c)

/-- The body of TMD after its check (42_tilemap.md R147). -/
def drawTilemap (cat : Category) (c : Clip) (s : State) : State := (tilesMeeting c).foldl (drawTile cat c) s

/-- TMD cat, c (42_tilemap.md R147). -/
def execTmd (cat : Category) (c : Clip) (s : State) : Host.Outcome State Fault Refusal :=
  whenPaletteBuilt s (.next (drawTilemap cat c s))

end Sys2Proof.Machine
end

