-- ==== Sys2Proof/Machine/Frame.lean ====
section
/-!
DEFINITION. The frame family, the document's Frame Composer: VEN, FLP, RSL and RFR (44_frame.md).
-/

namespace Sys2Proof.Machine

/-- VEN f (44_frame.md R182). -/
def execVen (f : Bool) (s : State) : Host.Outcome State Fault Refusal := .next (s.setVideoEnable f)

/-- FLP f (44_frame.md R183). -/
def execFlp (f : Bool) (s : State) : Host.Outcome State Fault Refusal := .next (s.setFlipScreen f)

/-- `SCANLINE()`: the next draw of the oracle, a free value (44_frame.md R184, log entry 10). -/
def State.scanline (s : State) : Byte := Config.scanline s.scanDraws

/-- One more draw of the oracle has been made (log entry 10). -/
def State.countScanline (s : State) : State := { s with scanDraws := s.scanDraws + 1 }

/-- RSL (44_frame.md R184). -/
def execRsl (s : State) : Host.Outcome State Fault Refusal :=
  .next ((s.respond (.scanline s.scanline)).countScanline)

/-- The three passes of an enabled frame (44_frame.md R185). -/
def renderFrame (c : Clip) (s : State) : State :=
  drawTilemap .above c (drawSprites c (drawTilemap .below c s))

/-- RFR c (44_frame.md R185): with video disabled nothing is written (R186). -/
def execRfr (c : Clip) (s : State) : Host.Outcome State Fault Refusal :=
  whenPaletteBuilt s (.next (if s.videoEnable then renderFrame c s else s))

end Sys2Proof.Machine
end

