-- ==== Sys2Proof/Machine/Palette.lean ====
section
/-!
DEFINITION. The palette family, the document's Palette Deriver: PLD and PRD (40_palette.md).
-/

namespace Sys2Proof.Machine

/-- `DAC(b0, b1, b2, b3, b4)` (40_palette.md R101). -/
def dac (b0 b1 b2 b3 b4 : Bool) : Nat :=
  0x19 * b0.toNat + 0x24 * b1.toNat + 0x35 * b2.toNat + 0x40 * b3.toNat + 0x4d * b4.toNat

/-- `SB0(i)` (30_encoding.md R70). -/
def subBank0 (b : Board) (i : Nat) : Byte :=
  match b.promLayout with
  | .contiguous => b.readCP i
  | .interleaved => b.readCP (2 * i)

/-- `SB1(i)` (30_encoding.md R70). -/
def subBank1 (b : Board) (i : Nat) : Byte :=
  match b.promLayout with
  | .contiguous => b.readCP (32 + i)
  | .interleaved => b.readCP (2 * i + 1)

/-- One base colour from its two sub-bank bytes (40_palette.md R102, 30_encoding.md R71). -/
def colorOf (s0 s1 : Byte) : Rgb where
  r := BitVec.ofNat 8 (dac (s1.getLsbD 1) (s1.getLsbD 2) (s1.getLsbD 3) (s1.getLsbD 4) (s1.getLsbD 5))
  g := BitVec.ofNat 8 (dac (s1.getLsbD 6) (s1.getLsbD 7) (s0.getLsbD 0) (s0.getLsbD 1) (s0.getLsbD 2))
  b := BitVec.ofNat 8 (dac (s0.getLsbD 3) (s0.getLsbD 4) (s0.getLsbD 5) (s0.getLsbD 6) (s0.getLsbD 7))

/-- The base colour bank (40_palette.md R102). -/
def baseBank (b : Board) : List Rgb := (List.range 32).map (fun i => colorOf (subBank0 b i) (subBank1 b i))

/-- `MemRead(LK:k, 1) & 0x0F` (40_palette.md R104). -/
def lookupNibble (b : Board) (k : Nat) : Nat := (b.readLK k &&& 0x0F#8).toNat

/-- The 128 character pens: lookup bytes 256..383, base colours 16..31 (40_palette.md R104). -/
def charPens (b : Board) (bank : List Rgb) : List Rgb :=
  (List.range 128).map (fun k => tableColor bank (lookupNibble b (256 + k) + 16))

/-- The 256 sprite pens: lookup bytes 0..255, base colours 0..15 (40_palette.md R104). -/
def spritePens (b : Board) (bank : List Rgb) : List Rgb :=
  (List.range 256).map (fun k => tableColor bank (lookupNibble b k))

/-- `DerivePalette`: character pens at 0..127, sprite pens at 128..383 (40_palette.md R105). -/
def derivePalette (b : Board) : List Rgb := charPens b (baseBank b) ++ spritePens b (baseBank b)

/-- The recorded value of a blob: its length, where that is wrong (60_exceptions.md R202). -/
def wrongLength (want got : Nat) : Option Nat := if got = want then none else some got

/-- Both PROM blobs have their exact sizes (40_palette.md R106). -/
def Board.promsSized (b : Board) : Bool := decide (b.colorProm.size = 64) && decide (b.lookup.size = 384)

/-- BASE, PEN and penValid of a built palette (40_palette.md R106). -/
def State.buildPalette (s : State) : State :=
  { s with base := baseBank s.board, pen := derivePalette s.board, penValid := true }

/-- The response format of a colour: r in bits 23..16, g in 15..8, b in 7..0 (30_encoding.md R87). -/
def rgbWord (c : Rgb) : BitVec 24 := c.r ++ c.g ++ c.b

/-- PLD (40_palette.md R106). -/
def execPld (s : State) : Host.Outcome State Fault Refusal :=
  if s.board.promsSized then .next s.buildPalette
  else raise (.configuration (wrongLength 64 s.board.colorProm.size) (wrongLength 384 s.board.lookup.size)) s

/-- PRD pen (40_palette.md R107): the address is checked before penValid. -/
def execPrd (pen : Nat) (s : State) : Host.Outcome State Fault Refusal :=
  whenInSpace .PT 384 pen s (whenPaletteBuilt s (.next (s.respond (.pen (rgbWord (s.penColor pen))))))

end Sys2Proof.Machine
end

