-- ==== Sys2Proof/Machine/Dispatch.lean ====
section
/-!
DEFINITION. One arm per command (30_encoding.md R83), each one call of its meaning.
-/

namespace Sys2Proof.Machine

def exec (i : Instr) (s : State) : Host.Outcome State Fault Refusal :=
  match i with
  | .pld => Sys2Proof.Machine.execPld s
  | .prd pen => Sys2Proof.Machine.execPrd pen s
  | .twc off val => Sys2Proof.Machine.execTwc off val s
  | .twa off val => Sys2Proof.Machine.execTwa off val s
  | .swp off val => Sys2Proof.Machine.execSwp off val s
  | .sws off val => Sys2Proof.Machine.execSws off val s
  | .ven f => Sys2Proof.Machine.execVen f s
  | .flp f => Sys2Proof.Machine.execFlp f s
  | .rsl => Sys2Proof.Machine.execRsl s
  | .rfr c => Sys2Proof.Machine.execRfr c s
  | .tmd cat c => Sys2Proof.Machine.execTmd cat c s
  | .spd c => Sys2Proof.Machine.execSpd c s

end Sys2Proof.Machine
end

