-- ==== Sys2Proof/Machine/Fetch.lean ====
section
/-!
DEFINITION. Executing one command word: decode it and run its meaning, or take IllegalCommand (60_exceptions.md R200).
-/

namespace Sys2Proof.Machine

/-- Execute the word `w` on a state it has been taken from. -/
def runWord (w : CommandWord) (s : State) : Host.Outcome State Fault Refusal :=
  match decode w with
  | .command i => exec i s
  | .illegal _ => raise (.illegalCommand w) s

end Sys2Proof.Machine
end

