-- ==== Sys2Proof/Machine/Step.lean ====
section
/-!
DEFINITION. One step: take the next command word of the host and execute it (20_memory.md R57). With no command issued the
core idles: it never acts on its own and never stops by itself (00_scope.md R11, 70_reset_and_hazards.md R245; log
entry 1).
-/

namespace Sys2Proof.Machine

/-- One step of the machine. -/
def step (s : State) : Host.Outcome State Fault Refusal :=
  match s.takeCommand with
  | none => .next s
  | some (w, s') => runWord w s'

/-- `s` with the word of opcode-table bits `w` issued as the very next command. -/
def State.withFetchWord (s : State) (nbits w : Nat) : State := s.placeCommand (tableWord nbits w)

end Sys2Proof.Machine
end

