-- ==== Sys2Proof/Machine/Assembler.lean ====
section
/-!
DEFINITION. The assembler of 30_encoding.md R88 and R89: one line of text to the commands it stands for, pseudo-instructions
expanded, an operand that does not fit its field rejected. It is a tool of the host; the core never sees it.
-/

namespace Sys2Proof.Machine

/-! ## Lexing a line (R88) -/

/-- A blank inside a line. -/
def isBlank (ch : Char) : Bool := ch == ' ' || ch == '\t'

/-- Text without blanks at either end. -/
def trimText (t : List Char) : List Char := ((t.dropWhile isBlank).reverse.dropWhile isBlank).reverse

/-- Text before the comment that `;` starts. -/
def beforeComment (t : List Char) : List Char := t.takeWhile (fun ch => !(ch == ';'))

/-- The parts of a text between commas. -/
def splitCommas : List Char → List (List Char)
  | [] => [[]]
  | ch :: t =>
    if ch == ',' then [] :: splitCommas t
    else
      match splitCommas t with
      | [] => [[ch]]
      | p :: ps => (ch :: p) :: ps

/-- The value of a hexadecimal digit. -/
def digitValue (ch : Char) : Option Nat :=
  if '0' ≤ ch ∧ ch ≤ '9' then some (ch.toNat - '0'.toNat)
  else if 'a' ≤ ch ∧ ch ≤ 'f' then some (ch.toNat - 'a'.toNat + 10)
  else if 'A' ≤ ch ∧ ch ≤ 'F' then some (ch.toNat - 'A'.toNat + 10)
  else none

/-- The number written by digits of a base, after a value already read. -/
def readDigits (radix : Nat) : Nat → List Char → Option Nat
  | n, [] => some n
  | n, ch :: t =>
    match digitValue ch with
    | some d => if d < radix then readDigits radix (radix * n + d) t else none
    | none => none

/-- A number: decimal, or hexadecimal with the prefix 0x. -/
def readNumber (t : List Char) : Option Nat :=
  match t with
  | [] => none
  | '0' :: 'x' :: [] => none
  | '0' :: 'x' :: h => readDigits 16 0 h
  | t => readDigits 10 0 t

/-- Every text read as a number. -/
def readNumbers : List (List Char) → Option (List Nat)
  | [] => some []
  | t :: ts =>
    match readNumber (trimText t), readNumbers ts with
    | some n, some ns => some (n :: ns)
    | _, _ => none

/-- The operands after a mnemonic; none at all when the text is empty. -/
def readOperands (t : List Char) : Option (List Nat) :=
  if trimText t = [] then some [] else readNumbers (splitCommas t)

/-! ## Operands that fit their fields (R88) -/

/-- An index operand, at most 65535. -/
def indexOperand (n : Nat) : Option Nat := if n ≤ 65535 then some n else none

/-- A byte operand, at most 255. -/
def byteOperand (n : Nat) : Option Byte := if n ≤ 255 then some (BitVec.ofNat 8 n) else none

/-- A one-bit operand, at most 1. -/
def bitOperand (n : Nat) : Option Bool := if n = 0 then some false else if n = 1 then some true else none

/-- The four bounds of a clip region. -/
def clipOperand (x0 x1 y0 y1 : Nat) : Option Clip :=
  match byteOperand x0, byteOperand x1, byteOperand y0, byteOperand y1 with
  | some a, some b, some c, some d => some ⟨a, b, c, d⟩
  | _, _, _, _ => none

/-- A write command of format W. -/
def writeLine (make : Nat → Byte → Instr) (off val : Nat) : Option Instr :=
  match indexOperand off, byteOperand val with
  | some o, some v => some (make o v)
  | _, _ => none

/-- A one-command line. -/
def single (i : Option Instr) : Option (List Instr) := i.map (fun i => [i])

/-! ## Pseudo-instructions (R89) -/

/-- `TILE t, code, attr`. -/
def tilePseudo (t code attr : Nat) : Option (List Instr) :=
  match writeLine Instr.twc t code, writeLine Instr.twa t attr with
  | some i, some j => some [i, j]
  | _, _ => none

/-- `SPRITE o, x, yraw, code, attr`: o even, 0x10 ≤ o ≤ 0x3e. -/
def spritePseudo (o x yraw code attr : Nat) : Option (List Instr) :=
  if o % 2 = 0 ∧ 0x10 ≤ o ∧ o ≤ 0x3e then
    match writeLine Instr.swp o x, writeLine Instr.swp (o + 1) code, writeLine Instr.sws o attr,
      writeLine Instr.sws (o + 1) yraw with
    | some i, some j, some k, some l => some [i, j, k, l]
    | _, _, _, _ => none
  else none

/-! ## Lines -/

/-- The commands of a mnemonic with its operands, in the order of R83's operand column, TMD's category first (R88). -/
def assembleCommand (mnemonic : List Char) (operands : List Nat) : Option (List Instr) :=
  match operands with
  | [] =>
    if mnemonic = "PLD".toList then some [.pld]
    else if mnemonic = "RSL".toList then some [.rsl]
    else if mnemonic = "RFRALL".toList then some [.rfr ⟨0#8, 255#8, 0#8, 255#8⟩]
    else if mnemonic = "VON".toList then some [.ven true]
    else if mnemonic = "VOFF".toList then some [.ven false]
    else none
  | [n] =>
    if mnemonic = "PRD".toList then single ((indexOperand n).map Instr.prd)
    else if mnemonic = "VEN".toList then single ((bitOperand n).map Instr.ven)
    else if mnemonic = "FLP".toList then single ((bitOperand n).map Instr.flp)
    else none
  | [m, n] =>
    if mnemonic = "TWC".toList then single (writeLine Instr.twc m n)
    else if mnemonic = "TWA".toList then single (writeLine Instr.twa m n)
    else if mnemonic = "SWP".toList then single (writeLine Instr.swp m n)
    else if mnemonic = "SWS".toList then single (writeLine Instr.sws m n)
    else none
  | [t, code, attr] => if mnemonic = "TILE".toList then tilePseudo t code attr else none
  | [x0, x1, y0, y1] =>
    if mnemonic = "RFR".toList then single ((clipOperand x0 x1 y0 y1).map Instr.rfr)
    else if mnemonic = "SPD".toList then single ((clipOperand x0 x1 y0 y1).map Instr.spd)
    else none
  | [a, x0, x1, y0, y1] =>
    if mnemonic = "TMD".toList then
      match bitOperand a, clipOperand x0 x1 y0 y1 with
      | some cat, some c => some [.tmd (if cat then .above else .below) c]
      | _, _ => none
    else if mnemonic = "SPRITE".toList then spritePseudo a x0 x1 y0 y1
    else none
  | _ => none

/-- The commands of one line of text (R88); an empty line has none. -/
def assembleText (line : List Char) : Option (List Instr) :=
  let body := trimText (beforeComment line)
  if body = [] then some []
  else
    let mnemonic := body.takeWhile (fun ch => !(isBlank ch))
    match readOperands (body.drop mnemonic.length) with
    | some operands => assembleCommand mnemonic operands
    | none => none

/-- The command words of one line of text (R88). -/
def assembleLine (line : String) : Option (List CommandWord) :=
  (assembleText line.toList).map (fun is => is.map encode)

end Sys2Proof.Machine
end

