-- ==== Sys2Proof/Machine/Environment.lean ====
section
/-!
DEFINITION. What the host may do to the core between commands (70_reset_and_hazards.md R246), beside issuing command words:
write FB, and reload the PROMs. These are not steps of the core; the host acts, then the core steps.
-/

namespace Sys2Proof.Machine

/-- A liberty of the host between two commands (70_reset_and_hazards.md R246). -/
inductive HostAction where
  /-- Issue a command word. -/
  | issue (w : CommandWord)
  /-- Write one entry of FB, any 9-bit value (10_state.md R34). -/
  | pokePixel (x y : Byte) (p : Pen)
  /-- Reload the PROMs, done by the asset loader (20_memory.md R65). -/
  | reloadProms (colorProm lookup : Blob)
  deriving DecidableEq, Repr

/-- PROM reload: nothing marks PEN stale (20_memory.md R65). -/
def State.reloadProms (s : State) (colorProm lookup : Blob) : State :=
  { s with board := { s.board with colorProm := colorProm, lookup := lookup } }

/-- The host writes one entry of FB. -/
def State.pokePixel (s : State) (x y : Byte) (p : Pen) : State :=
  { s with fb := writePixel s.fb x.toNat y.toNat p }

/-- The effect of a host action. -/
def State.hostAct (s : State) : HostAction → State
  | .issue w => s.issue w
  | .pokePixel x y p => s.pokePixel x y p
  | .reloadProms cp lk => s.reloadProms cp lk

/-- What the presentation layer reads (70_reset_and_hazards.md R245). -/
structure Presented where
  fb : Buffer
  pen : List Rgb
  flipScreen : Bool
  deriving DecidableEq, Repr

/-- FB, PEN and flipScreen, read by the presentation layer without effect (70_reset_and_hazards.md R246). -/
def State.presented (s : State) : Presented := ⟨s.fb, s.pen, s.flipScreen⟩

end Sys2Proof.Machine
end

