-- ==== Sys2Proof/Safety.lean ====
section
/-!
DEFINITION. What claims are stated in: the invariants of 10_state.md R28 and R37, the states R36 allows after reset, a run
without faults (60_exceptions.md R206), sequences of commands, what the host can observe, and the closed forms of a sprite layer and of a frame
(43_sprites.md R167, 44_frame.md R187).
-/

namespace Sys2Proof.Machine

/-! ## Invariants -/

/-- Every memory is in its canonical form and within its space (10_state.md R37 (a)). -/
structure State.MemoryWf (s : State) : Prop where
  tileCode : Store.wf unwrittenByte 1024 s.tileCode = true
  tileAttr : Store.wf unwrittenByte 1024 s.tileAttr = true
  dirty : Store.wf true 1024 s.dirty = true
  cache : Store.wf DecodedTile.zero 1024 s.cache = true
  sprPrimary : Store.wf unwrittenByte 64 s.sprPrimary = true
  sprSecondary : Store.wf unwrittenByte 64 s.sprSecondary = true
  fb : Buffer.wf s.fb = true

/-- BASE and PEN have their lengths (10_state.md R26). -/
def State.TablesSized (s : State) : Prop := s.base.length = 32 ∧ s.pen.length = 384

/-- penValid = 1 implies that PEN is the palette of the PROMs of b, and BASE their bank. With b the board at the last PLD
this is 10_state.md R37 (b) in the weak form that 93_implementation_defined.md U14 asks for where the PROMs can be
reloaded. -/
def State.PaletteFrom (b : Board) (s : State) : Prop := s.penValid = true → s.base = baseBank b ∧ s.pen = derivePalette b

/-- penValid = 1 implies that PEN is the palette of the PROMs now in the machine (10_state.md R37 (b) as it stands: with
no reload since the last PLD). -/
def State.PaletteCurrent (s : State) : Prop := s.PaletteFrom s.board

/-- The cache invariant: a clean tile's cached record is the decode of its bytes (10_state.md R28). -/
def State.CacheCoherent (s : State) : Prop := ∀ t, t < 1024 → s.isDirty t = false → s.cachedTile t = s.tileAt t

/-- A response that is a fault. -/
def Response.isFault : Response → Bool
  | .pen _ => false
  | .scanline _ => false
  | .fault _ => true

/-- The run is marked exactly when a fault has been reported (60_exceptions.md R206). -/
def State.MarkExact (s : State) : Prop := s.faultMark = s.responses.any Response.isFault

/-- The invariant of the machine whose last PLD found the board b; it outlives a PROM reload
(93_implementation_defined.md U14). -/
structure State.InvFrom (b : Board) (s : State) : Prop where
  memory : s.MemoryWf
  tables : s.TablesSized
  palette : s.PaletteFrom b
  cache : s.CacheCoherent
  mark : s.MarkExact

/-- The invariant with a current palette: no PROM reload since the last PLD (10_state.md R37). -/
abbrev State.Inv (s : State) : Prop := s.InvFrom s.board

/-- The board at the last PLD, after the step from s, where b is that board before the step: a PLD that completes builds
the palette from the PROMs of its moment (20_memory.md R65). -/
def State.lastPld (b : Board) (s : State) : Board :=
  match s.pending with
  | [] => b
  | w :: _ => if decode w = .command .pld ∧ s.board.promsSized = true then s.board else b

/-- The states the spec allows after reset (10_state.md R36): penValid 0, every dirty bit 1, nothing issued or reported
yet; every memory, table and flag holds anything that fits it, whatever the board. -/
structure State.AfterReset (s : State) : Prop where
  penValid : s.penValid = false
  dirty : s.dirty = []
  responses : s.responses = []
  faultMark : s.faultMark = false
  memory : s.MemoryWf
  tables : s.TablesSized

/-- The run so far has reported no fault (60_exceptions.md R206). -/
def State.NoFault (s : State) : Prop := s.faultMark = false

/-- The response of a completed command: nothing, or one value (30_encoding.md R87). -/
def State.CompletedAs (s t : State) : Prop :=
  t.faultMark = s.faultMark ∧
    (t.responses = s.responses ∨ ∃ r, Response.isFault r = false ∧ t.responses = s.responses ++ [r])

/-- The index operand, where the command has one, is inside its space (60_exceptions.md R201). -/
def indexInSpace : Instr → Bool
  | .pld => true
  | .prd pen => decide (pen ≤ 383)
  | .twc off _ => decide (off ≤ 1023)
  | .twa off _ => decide (off ≤ 1023)
  | .swp off _ => decide (off ≤ 63)
  | .sws off _ => decide (off ≤ 63)
  | .ven _ => true
  | .flp _ => true
  | .rsl => true
  | .rfr _ => true
  | .tmd _ _ => true
  | .spd _ => true

/-! ## Sequences of commands -/

/-- The write commands (20_memory.md R58). -/
def isWrite : Instr → Bool
  | .pld => false
  | .prd _ => false
  | .twc _ _ => true
  | .twa _ _ => true
  | .swp _ _ => true
  | .sws _ _ => true
  | .ven _ => false
  | .flp _ => false
  | .rsl => false
  | .rfr _ => false
  | .tmd _ _ => false
  | .spd _ => false

/-- Execute commands one after the other, in the order of the list (20_memory.md R57). -/
def execAll : List Instr → State → Host.Outcome State Fault Refusal
  | [], s => .next s
  | i :: is, s =>
    match exec i s with
    | .next t => execAll is t
    | .fault f => .fault f
    | .refused r => .refused r

/-! ## The reference without a cache (42_tilemap.md R149) -/

/-- The two states differ at most in the hidden state, dirty and cache (10_state.md R28). -/
def State.SameButHidden (s t : State) : Prop := t = { s with dirty := t.dirty, cache := t.cache }

/-- One tile of the reference draw: the bytes now in memory are decoded afresh. -/
def drawTileFresh (cat : Category) (c : Clip) (s : State) (t : Nat) : State :=
  if (s.tileAt t).priorityCategory = cat then s.blitTile c t (s.tileAt t) else s

/-- The reference draw of a category: no dirty bit and no cache entry is read or written. -/
def drawTilemapFresh (cat : Category) (c : Clip) (s : State) : State := (tilesMeeting c).foldl (drawTileFresh cat c) s

/-- The reference meaning of a command: the draws decode every tile afresh, the rest is as in `exec`. -/
def execFresh (i : Instr) (s : State) : Host.Outcome State Fault Refusal :=
  match i with
  | .tmd cat c => whenPaletteBuilt s (.next (drawTilemapFresh cat c s))
  | .rfr c =>
    whenPaletteBuilt s
      (.next
        (if s.videoEnable then drawTilemapFresh .above c (drawSprites c (drawTilemapFresh .below c s)) else s))
  | .pld => exec .pld s
  | .prd pen => exec (.prd pen) s
  | .twc off val => exec (.twc off val) s
  | .twa off val => exec (.twa off val) s
  | .swp off val => exec (.swp off val) s
  | .sws off val => exec (.sws off val) s
  | .ven f => exec (.ven f) s
  | .flp f => exec (.flp f) s
  | .rsl => exec .rsl s
  | .spd c => exec (.spd c) s

/-- One step of the reference. -/
def stepFresh (s : State) : Host.Outcome State Fault Refusal :=
  match s.takeCommand with
  | none => .next s
  | some (w, s') =>
    match decode w with
    | .command i => execFresh i s'
    | .illegal _ => raise (.illegalCommand w) s'

/-- The reference machine. -/
def coreFresh : Host.Core :=
  { State := State, Fault := Fault, Refusal := Refusal, step := stepFresh, reset := State.reset }

/-! ## Closed forms -/

/-- What the sprite of slot o shows at (x, y), clip aside: its pen where it covers the pixel with a non-zero value
(43_sprites.md R167). -/
def State.spriteShows (s : State) (o x y : Nat) : Option Pen :=
  if (s.spriteAt o).x ≤ x ∧ x - (s.spriteAt o).x < s.board.spriteW ∧
      (s.spriteAt o).y ≤ (y : Int) ∧ (y : Int) - (s.spriteAt o).y < s.board.spriteH then
    spritePaint s.board (s.spriteAt o) (x - (s.spriteAt o).x) ((y : Int) - (s.spriteAt o).y).toNat
  else none

/-- The slot offsets in rising order, 0x10 first. -/
def slotsRising : List Nat := (List.range 24).map (fun k => 0x10 + 2 * k)

/-- The pen of the sprite layer at (x, y): that of the least slot offset that shows one (43_sprites.md R167). -/
def State.topSprite (s : State) (x y : Nat) : Option Pen := slotsRising.findSome? (fun o => s.spriteShows o x y)

/-- The pen of the tile that covers (x, y) (44_frame.md R187). -/
def State.background (s : State) (x y : Nat) : Pen :=
  BitVec.ofNat 9 (tilePen s.board (s.tileAt (tileCovering x y)) (x % 8) (y % 8))

/-- `Mux(x, y)` (44_frame.md R187). -/
def State.mux (s : State) (x y : Nat) : Pen :=
  if (s.tileAt (tileCovering x y)).priorityCategory = .above then s.background x y
  else (s.topSprite x y).getD (s.background x y)

/-- The pixel (x, y) of the buffer is inside c (42_tilemap.md R145). -/
def insideClip (c : Clip) (x y : Nat) : Bool := inClip c (x : Int) (y : Int)

end Sys2Proof.Machine
end

