-- ==== Sys2Proof/Certificates/Slice0/Obligations.lean ====
section
/-!
DEFINITION. The statements for the provers, from the numbered rules of spec/. Each `Obligations.<Name>` is listed in
OBLIGATIONS.json with the rules it cites.
-/

open Sys2Proof Sys2Proof.Machine

/-- For every well-formed command i, decode (encode i) is i: every operand at every value its field admits.
(30_encoding.md R81, 30_encoding.md R82, 30_encoding.md R83) -/
def Obligations.DecodeOfEncodeIsTheInstruction : Prop :=
  ∀ i : Instr, i.wellFormed = true → decode (encode i) = .command i

/-- For every 40-bit word w and command i, if w decodes to i then i is well formed and encode i is w: no bit of a legal
word is dropped. (30_encoding.md R80, 30_encoding.md R81, 30_encoding.md R85) -/
def Obligations.DecodedWordEncodesBack : Prop :=
  ∀ (w : CommandWord) (i : Instr), decode w = .command i → i.wellFormed = true ∧ encode i = w

/-- A word that decodes to i selects i's row (word AND mask = match); a word is illegal exactly when it selects no row;
two rows that the same word selects are the same row. (R84) -/
def Obligations.MatchAndMaskDecide : Prop :=
  (∀ (w : CommandWord) (i : Instr), decode w = .command i → i.row ∈ opcodeTable ∧ i.row.selects w = true) ∧
  (∀ w : CommandWord, (∃ why, decode w = .illegal why) ↔ ∀ r ∈ opcodeTable, r.selects w = false) ∧
  (∀ (w : CommandWord) (r r' : OpcodeRow), r ∈ opcodeTable → r' ∈ opcodeTable → r.selects w = true →
    r'.selects w = true → r = r')

/-- A word is illegal exactly when its opcode byte is not one of the thirteen of R85, or it has one of them and a non-
zero bit in a zero field of that opcode's format. (30_encoding.md R81, 30_encoding.md R85) -/
def Obligations.OpcodeAndZeroFieldsDecideLegality : Prop :=
  ∀ w : CommandWord,
    (∃ why, decode w = .illegal why) ↔
      (opcodeOf w ∉ [0x01#8, 0x02#8, 0x10#8, 0x11#8, 0x20#8, 0x21#8, 0x30#8, 0x31#8, 0x32#8, 0x40#8, 0x42#8, 0x43#8,
          0x44#8] ∨
        (opcodeOf w ∈ [0x01#8, 0x32#8] ∧ w.extractLsb' 0 32 ≠ 0#32) ∨
        (opcodeOf w = 0x02#8 ∧ w.extractLsb' 16 16 ≠ 0#16) ∨
        (opcodeOf w ∈ [0x10#8, 0x11#8, 0x20#8, 0x21#8] ∧ w.extractLsb' 24 8 ≠ 0#8) ∨
        (opcodeOf w ∈ [0x30#8, 0x31#8] ∧ w.extractLsb' 1 31 ≠ 0#31))

/-- The six words of R90 decode to the commands they stand for, and those commands encode to the words. (R90) -/
def Obligations.WorkedEncodings : Prop :=
  (decode 0x1000024A07#40 = .command (.twc 0x24a 0x07#8) ∧ encode (.twc 0x24a 0x07#8) = 0x1000024A07#40) ∧
  (decode 0x4000FF10EF#40 = .command (.rfr ⟨0#8, 255#8, 16#8, 239#8⟩) ∧
    encode (.rfr ⟨0#8, 255#8, 16#8, 239#8⟩) = 0x4000FF10EF#40) ∧
  (decode 0x4300FF00FF#40 = .command (.tmd .above ⟨0#8, 255#8, 0#8, 255#8⟩) ∧
    encode (.tmd .above ⟨0#8, 255#8, 0#8, 255#8⟩) = 0x4300FF00FF#40) ∧
  (decode 0x3000000001#40 = .command (.ven true) ∧ encode (.ven true) = 0x3000000001#40) ∧
  (decode 0x020000017F#40 = .command (.prd 383) ∧ encode (.prd 383) = 0x020000017F#40) ∧
  (decode 0x0100000000#40 = .command .pld ∧ encode .pld = 0x0100000000#40)

/-- The five bytes of a word followed by any bytes are read back as that word and those bytes; the first of them is bits
39..32, and the rest follow in falling order. (R55) -/
def Obligations.FiveBytesOpcodeFirst : Prop :=
  ∀ (w : CommandWord) (rest : List Byte),
    takeWord (wordBytes w ++ rest) = some (w, rest) ∧
      wordBytes w = [w.extractLsb' 32 8, w.extractLsb' 24 8, w.extractLsb' 16 8, w.extractLsb' 8 8, w.extractLsb' 0 8] ∧
      (wordBytes w).head? = some (opcodeOf w)

/-- TILE, SPRITE, RFRALL, VON and VOFF assemble to the listed commands in the listed order; SPRITE with o odd or outside
0x10..0x3e is rejected. (R89) -/
def Obligations.AssemblerExpandsPseudoInstructions : Prop :=
  (∀ t code attr : Nat, t ≤ 65535 → code ≤ 255 → attr ≤ 255 →
      assembleCommand "TILE".toList [t, code, attr] =
        some [.twc t (BitVec.ofNat 8 code), .twa t (BitVec.ofNat 8 attr)]) ∧
  (∀ o x yraw code attr : Nat, o % 2 = 0 → 0x10 ≤ o → o ≤ 0x3e → x ≤ 255 → yraw ≤ 255 → code ≤ 255 → attr ≤ 255 →
      assembleCommand "SPRITE".toList [o, x, yraw, code, attr] =
        some [.swp o (BitVec.ofNat 8 x), .swp (o + 1) (BitVec.ofNat 8 code), .sws o (BitVec.ofNat 8 attr),
          .sws (o + 1) (BitVec.ofNat 8 yraw)]) ∧
  (∀ o x yraw code attr : Nat, ¬(o % 2 = 0 ∧ 0x10 ≤ o ∧ o ≤ 0x3e) →
      assembleCommand "SPRITE".toList [o, x, yraw, code, attr] = none) ∧
  assembleCommand "RFRALL".toList [] = some [.rfr ⟨0#8, 255#8, 0#8, 255#8⟩] ∧
  assembleCommand "VON".toList [] = some [.ven true] ∧
  assembleCommand "VOFF".toList [] = some [.ven false]

/-- If the oldest issued word w decodes to a command i, step at the state is exec of i at the state without that word;
the command stream is the model's form of R21's sequence of commands (log entry 1). (20_memory.md R57, 10_state.md
R21) -/
def Obligations.StepRunsTheDecodedCommand : Prop :=
  ∀ (s : State) (w : CommandWord) (rest : List CommandWord) (i : Instr), s.pending = w :: rest →
    decode w = .command i → step s = exec i { s with pending := rest }

/-- If the oldest issued word is illegal, step only takes it, reports IllegalCommand(word) and marks the run; no
execution of a decoded command reports IllegalCommand. (R200) -/
def Obligations.IllegalWordFaultsAndChangesNothing : Prop :=
  (∀ (s : State) (w : CommandWord) (rest : List CommandWord) (why : Illegal), s.pending = w :: rest →
      decode w = .illegal why →
      step s = .next { s with
        pending := rest
        responses := s.responses ++ [.fault (.illegalCommand w)]
        faultMark := true }) ∧
  (∀ (i : Instr) (s t : State) (w : CommandWord), exec i s = .next t →
      t.responses ≠ s.responses ++ [.fault (.illegalCommand w)])

/-- A step with an empty command stream leaves the state as it is: the core never acts on its own and never stops by
itself. (00_scope.md R11, 70_reset_and_hazards.md R245) -/
def Obligations.NoCommandNoChange : Prop :=
  ∀ s : State, s.pending = [] → step s = .next s

/-- In every state step answers a next state whose command stream is the old one without its first word, and the empty
one where no word was waiting: no command blocks, stops the machine or is retried, and none issues a command. That a
step with no word waiting answers a next state is the model's choice (log entry 1), and so is the form of a fault, a
next state with the fault as response (log entry 2). (00_scope.md R13, 20_memory.md R57) -/
def Obligations.EveryStepAnswersANextState : Prop :=
  ∀ s : State, ∃ t, step s = .next t ∧ t.pending = s.pending.tail

/-- Every execution answers a next state; either it only appends one fault to the responses and marks the run, and the
same command executed again appends the same fault again; or it marks nothing and appends at most one value, which
is no fault. (R205) -/
def Obligations.CommandCompletesOrFaultsChangingNothing : Prop :=
  ∀ (i : Instr) (s : State), ∃ t, exec i s = .next t ∧
    (s.CompletedAs t ∨
      ∃ f : Fault,
        t = { s with responses := s.responses ++ [.fault f], faultMark := true } ∧
        exec i t = .next { t with responses := t.responses ++ [.fault f], faultMark := true })

/-- With penValid = 1, every command other than PLD whose index operand is inside its space completes, whatever the
memories hold. (R207) -/
def Obligations.SteadyStateHasNoFaults : Prop :=
  ∀ (i : Instr) (s : State), s.penValid = true → i ≠ .pld → indexInSpace i = true →
    ∃ t, exec i s = .next t ∧ s.CompletedAs t ∧ t.penValid = true

/-- TWC and TWA with off > 1023, SWP and SWS with off > 63 and PRD with pen > 383 only report AddressingFault(space,
index) and mark the run, whatever penValid is; no draw reports one. (R201) -/
def Obligations.OutOfRangeIndexFaults : Prop :=
  (∀ (s : State) (off : Nat) (val : Byte), 1023 < off →
      exec (.twc off val) s =
        .next { s with responses := s.responses ++ [.fault (.addressing .TC off)], faultMark := true } ∧
      exec (.twa off val) s =
        .next { s with responses := s.responses ++ [.fault (.addressing .TA off)], faultMark := true }) ∧
  (∀ (s : State) (off : Nat) (val : Byte), 63 < off →
      exec (.swp off val) s =
        .next { s with responses := s.responses ++ [.fault (.addressing .SP off)], faultMark := true } ∧
      exec (.sws off val) s =
        .next { s with responses := s.responses ++ [.fault (.addressing .SS off)], faultMark := true }) ∧
  (∀ (s : State) (pen : Nat), 383 < pen →
      exec (.prd pen) s =
        .next { s with responses := s.responses ++ [.fault (.addressing .PT pen)], faultMark := true }) ∧
  (∀ (s t : State) (cat : Category) (c : Clip) (sp : Space) (index : Nat),
      exec (.tmd cat c) s = .next t ∨ exec (.spd c) s = .next t ∨ exec (.rfr c) s = .next t →
      t.responses ≠ s.responses ++ [.fault (.addressing sp index)])

/-- With penValid = 0, every draw, and PRD of a pen 0..383, only reports PaletteNotBuilt and marks the run, also where
video is disabled. (R203) -/
def Obligations.DrawBeforePaletteFaults : Prop :=
  ∀ (s : State) (pen : Nat) (cat : Category) (c : Clip), s.penValid = false →
    (pen ≤ 383 →
      exec (.prd pen) s = .next { s with responses := s.responses ++ [.fault .paletteNotBuilt], faultMark := true }) ∧
    exec (.tmd cat c) s = .next { s with responses := s.responses ++ [.fault .paletteNotBuilt], faultMark := true } ∧
    exec (.spd c) s = .next { s with responses := s.responses ++ [.fault .paletteNotBuilt], faultMark := true } ∧
    exec (.rfr c) s = .next { s with responses := s.responses ++ [.fault .paletteNotBuilt], faultMark := true }

/-- If COLOR_PROM is not exactly 64 bytes or LOOKUP not exactly 384, PLD only reports ConfigurationError and marks the
run, recording the length of each wrong blob (recording both is the model's choice, log entry 12); no other command
reports one. (60_exceptions.md R202) -/
def Obligations.WrongPromSizeFaults : Prop :=
  (∀ s : State, ¬(s.board.colorProm.size = 64 ∧ s.board.lookup.size = 384) →
      exec .pld s =
        .next { s with
          responses := s.responses ++
            [.fault (.configuration
              (if s.board.colorProm.size = 64 then none else some s.board.colorProm.size)
              (if s.board.lookup.size = 384 then none else some s.board.lookup.size))]
          faultMark := true }) ∧
  (∀ (i : Instr) (s t : State) (a b : Option Nat), i ≠ .pld → exec i s = .next t →
      t.responses ≠ s.responses ++ [.fault (.configuration a b)])

/-- Whatever a step does, a run once marked stays marked, and the responses so far stay as they are, with at most one
more after them. (60_exceptions.md R206) -/
def Obligations.FaultMarkIsSticky : Prop :=
  ∀ s t : State, step s = .next t →
    (s.faultMark = true → t.faultMark = true) ∧ ∃ new : List Response, t.responses = s.responses ++ new ∧ new.length ≤ 1

/-- For every state that meets Inv, in which a built PEN is the table of the present PROMs, if step answers a next
state, that state meets Inv. For every board b and state that meets the invariant with a built PEN the table of the
PROMs of b, the board at the last PLD: the next state of a step meets it with the board at the last PLD after the
step (the present board if the step completed a PLD, else b), and the state after any host action, a PROM reload
included, meets it with b. (10_state.md R28, 10_state.md R37, 20_memory.md R65, 60_exceptions.md R206,
93_implementation_defined.md U14) -/
def Obligations.EveryStepKeepsTheInvariant : Prop :=
  (∀ s t : State, s.Inv → step s = .next t → t.Inv) ∧
  (∀ (b : Board) (s t : State), s.InvFrom b → step s = .next t → t.InvFrom (s.lastPld b)) ∧
  (∀ (b : Board) (s : State) (a : HostAction), s.InvFrom b → (s.hostAct a).InvFrom b)

/-- State.reset meets Inv, and the invariant with whatever board as that of the last PLD, and is one of the states R36
allows; penValid is 0 and all 1024 dirty bits are 1. The contents of memories, tables and flags at reset are the
model's choice (log entries 4 to 8) and nothing here rests on them. (10_state.md R36, 10_state.md R37,
70_reset_and_hazards.md R230) -/
def Obligations.ResetMeetsTheInvariant : Prop :=
  State.reset.Inv ∧ (∀ b : Board, State.reset.InvFrom b) ∧ State.reset.AfterReset ∧ State.reset.penValid = false ∧
  ∀ t, t < 1024 → State.reset.isDirty t = true

/-- For every state with penValid 0, all tiles dirty and no response yet, with any contents that fit, Inv holds, and the
invariant with whatever board as that of the last PLD: R36's quantification over the unspecified contents.
(10_state.md R36, 93_implementation_defined.md U3) -/
def Obligations.EveryAllowedResetMeetsTheInvariant : Prop :=
  ∀ s : State, s.AfterReset → s.Inv ∧ (∀ b : Board, s.InvFrom b) ∧ ∀ t, t < 1024 → s.isDirty t = true

/-- Whatever command a step runs, the board after it is the board before it, and penValid, once 1, stays 1; the step of
a state with another HOST_ADDRESS_MAP answers the same state, that map apart: no rule uses it. (10_state.md R23,
10_state.md R24, 10_state.md R25, 00_scope.md R7, 20_memory.md R52) -/
def Obligations.NoCommandWritesTheBoard : Prop :=
  (∀ s t : State, step s = .next t → t.board = s.board ∧ (s.penValid = true → t.penValid = true)) ∧
  (∀ (s : State) (m : HostAddressMap),
    ∃ t u, step s = .next t ∧ step { s with board := { s.board with hostAddressMap := m } } = .next u ∧
      { u with board := t.board } = t)

/-- With PROM blobs of the exact sizes PLD answers a state that differs only in BASE, PEN and penValid = 1; BASE[i] has
the DAC sums of the listed bits of SB1(i) and SB0(i), which are CP:32+i and CP:i under the contiguous layout and
CP:2*i+1 and CP:2*i under the interleaved one; PEN[p] is BASE[(LK[256+p] & 0x0F) + 16] for p <= 127 and
BASE[LK[p-128] & 0x0F] for 128 <= p <= 383. (R105, R102, R70) -/
def Obligations.PldBuildsThePenTable : Prop :=
  ∀ s : State, s.board.colorProm.size = 64 → s.board.lookup.size = 384 →
    ∃ t, exec .pld s = .next t ∧
      t = { s with base := t.base, pen := t.pen, penValid := true } ∧
      t.base.length = 32 ∧ t.pen.length = 384 ∧
      (∀ i, i < 32 →
        let s0 := if s.board.promLayout = .contiguous then s.board.readCP i else s.board.readCP (2 * i)
        let s1 := if s.board.promLayout = .contiguous then s.board.readCP (32 + i) else s.board.readCP (2 * i + 1)
        (t.baseColor i).r.toNat =
          dac (s1.getLsbD 1) (s1.getLsbD 2) (s1.getLsbD 3) (s1.getLsbD 4) (s1.getLsbD 5) ∧
        (t.baseColor i).g.toNat =
          dac (s1.getLsbD 6) (s1.getLsbD 7) (s0.getLsbD 0) (s0.getLsbD 1) (s0.getLsbD 2) ∧
        (t.baseColor i).b.toNat =
          dac (s0.getLsbD 3) (s0.getLsbD 4) (s0.getLsbD 5) (s0.getLsbD 6) (s0.getLsbD 7)) ∧
      (∀ p, p ≤ 127 → t.penColor p = t.baseColor ((s.board.readLK (256 + p)).toNat % 16 + 16)) ∧
      (∀ p, 128 ≤ p → p ≤ 383 → t.penColor p = t.baseColor ((s.board.readLK (p - 128)).toNat % 16))

/-- With PROM blobs of the exact sizes, PLD executed on the state after a PLD answers that same state. (40_palette.md
R106, 20_memory.md R59) -/
def Obligations.PldIsIdempotent : Prop :=
  ∀ s : State, s.board.colorProm.size = 64 → s.board.lookup.size = 384 →
    ∃ t, exec .pld s = .next t ∧ exec .pld t = .next t

/-- For all five bits DAC is at most 255; no bit gives 0, all five give 255; the 32 bit patterns give 30 different sums,
and the two coincidences are 89 and 166. (R103) -/
def Obligations.DacRangeAndLevels : Prop :=
  (∀ b0 b1 b2 b3 b4 : Bool, dac b0 b1 b2 b3 b4 ≤ 255) ∧
  dac false false false false false = 0 ∧ dac true true true true true = 255 ∧
  (([false, true].flatMap fun a => [false, true].flatMap fun b => [false, true].flatMap fun c =>
      [false, true].flatMap fun d => [false, true].map fun e => dac a b c d e).dedup.length = 30) ∧
  dac true false false true false = 89 ∧ dac false true true false false = 89 ∧
  dac true false false true true = 166 ∧ dac false true true false true = 166

/-- Two boards whose sub-bank 0 entries agree, whose sub-bank 1 entries agree in bits 7..1 and whose lookup bytes agree
in bits 3..0 derive the same bank and the same 384 pens. (40_palette.md R109, 30_encoding.md R78) -/
def Obligations.PaletteIgnoresUnusedBits : Prop :=
  ∀ b b' : Board,
    (∀ i, i < 32 → subBank0 b i = subBank0 b' i) →
    (∀ i, i < 32 → (subBank1 b i).toNat / 2 = (subBank1 b' i).toNat / 2) →
    (∀ k, k < 384 → (b.readLK k).toNat % 16 = (b'.readLK k).toNat % 16) →
    baseBank b = baseBank b' ∧ derivePalette b = derivePalette b'

/-- For bits 1..5 of the sub-bank 1 byte the red channel, for bits 6 and 7 and bits 0..2 of the sub-bank 0 byte the
green, for bits 3..7 of the sub-bank 0 byte the blue rises by the bit's weight when the bit goes from 0 to 1; the
other channels stay. (40_palette.md R109, 40_palette.md R101) -/
def Obligations.OneBitMovesOneChannel : Prop :=
  ∀ s0 s1 : Byte,
    (∀ k w, (k, w) ∈ [(1, 25), (2, 36), (3, 53), (4, 64), (5, 77)] → s1.getLsbD k = false →
      (colorOf s0 (s1 ||| BitVec.twoPow 8 k)).r.toNat = (colorOf s0 s1).r.toNat + w ∧
      (colorOf s0 (s1 ||| BitVec.twoPow 8 k)).g = (colorOf s0 s1).g ∧
      (colorOf s0 (s1 ||| BitVec.twoPow 8 k)).b = (colorOf s0 s1).b) ∧
    (∀ k w, (k, w) ∈ [(6, 25), (7, 36)] → s1.getLsbD k = false →
      (colorOf s0 (s1 ||| BitVec.twoPow 8 k)).g.toNat = (colorOf s0 s1).g.toNat + w ∧
      (colorOf s0 (s1 ||| BitVec.twoPow 8 k)).r = (colorOf s0 s1).r ∧
      (colorOf s0 (s1 ||| BitVec.twoPow 8 k)).b = (colorOf s0 s1).b) ∧
    (∀ k w, (k, w) ∈ [(0, 53), (1, 64), (2, 77)] → s0.getLsbD k = false →
      (colorOf (s0 ||| BitVec.twoPow 8 k) s1).g.toNat = (colorOf s0 s1).g.toNat + w ∧
      (colorOf (s0 ||| BitVec.twoPow 8 k) s1).r = (colorOf s0 s1).r ∧
      (colorOf (s0 ||| BitVec.twoPow 8 k) s1).b = (colorOf s0 s1).b) ∧
    (∀ k w, (k, w) ∈ [(3, 25), (4, 36), (5, 53), (6, 64), (7, 77)] → s0.getLsbD k = false →
      (colorOf (s0 ||| BitVec.twoPow 8 k) s1).b.toNat = (colorOf s0 s1).b.toNat + w ∧
      (colorOf (s0 ||| BitVec.twoPow 8 k) s1).r = (colorOf s0 s1).r ∧
      (colorOf (s0 ||| BitVec.twoPow 8 k) s1).g = (colorOf s0 s1).g)

/-- PRD of a pen 0..383 with a built palette only appends the response {r, g, b}, r in bits 23..16, g in 15..8, b in
7..0; a pen above 383 reports AddressingFault(PT, pen), and otherwise penValid = 0 reports PaletteNotBuilt. (R107) -/
def Obligations.PrdRespondsWithThePen : Prop :=
  ∀ (s : State) (pen : Nat),
    (pen ≤ 383 → s.penValid = true →
      ∃ w : BitVec 24,
        w.toNat = 65536 * (s.penColor pen).r.toNat + 256 * (s.penColor pen).g.toNat + (s.penColor pen).b.toNat ∧
        exec (.prd pen) s = .next { s with responses := s.responses ++ [.pen w] }) ∧
    (383 < pen →
      exec (.prd pen) s =
        .next { s with responses := s.responses ++ [.fault (.addressing .PT pen)], faultMark := true }) ∧
    (pen ≤ 383 → s.penValid = false →
      exec (.prd pen) s = .next { s with responses := s.responses ++ [.fault .paletteNotBuilt], faultMark := true })

/-- A reload by the host changes neither PEN nor penValid, so PRD responds as before it; PLD on the reloaded state gives
the palette of the new PROMs. (20_memory.md R65, 20_memory.md R66, 93_implementation_defined.md U14) -/
def Obligations.PromReloadLeavesPenStale : Prop :=
  ∀ (s : State) (cp lk : Blob) (pen : Nat), pen ≤ 383 → s.penValid = true →
    exec (.prd pen) (s.hostAct (.reloadProms cp lk)) =
        .next
          (State.hostAct { s with responses := s.responses ++ [.pen (rgbWord (s.penColor pen))] } (.reloadProms cp lk)) ∧
      (cp.size = 64 → lk.size = 384 →
        ∃ t, exec .pld (s.hostAct (.reloadProms cp lk)) = .next t ∧
          t.pen = derivePalette { s.board with colorProm := cp, lookup := lk })

/-- Code = c + 256 * a[5], in 0..511; group = a[4:0]; flipX = a[6]; flipY = a[7]; category = a[4]. (R122) -/
def Obligations.VariantADecode : Prop :=
  ∀ c a : Byte,
    (decodeA c a).graphicsCode = c.toNat + 256 * (a.toNat / 32 % 2) ∧ (decodeA c a).graphicsCode ≤ 511 ∧
      (decodeA c a).colorGroup = a.toNat % 32 ∧ (decodeA c a).flipX = a.getLsbD 6 ∧
      (decodeA c a).flipY = a.getLsbD 7 ∧
      (decodeA c a).priorityCategory = (if a.getLsbD 4 then Category.above else Category.below)

/-- Code = c + 256 * a[6:5], in 0..1023; group = a[4:0]; no flips; category = a[7]. (R123) -/
def Obligations.VariantBDecode : Prop :=
  ∀ c a : Byte,
    (decodeB c a).graphicsCode = c.toNat + 256 * (a.toNat / 32 % 4) ∧ (decodeB c a).graphicsCode ≤ 1023 ∧
      (decodeB c a).colorGroup = a.toNat % 32 ∧ (decodeB c a).flipX = false ∧ (decodeB c a).flipY = false ∧
      (decodeB c a).priorityCategory = (if a.getLsbD 7 then Category.above else Category.below)

/-- Under A the reachable tiles are exactly codes 0..511, groups 0..31, any flips, with category 1 exactly for groups
16..31; under B exactly codes 0..1023, groups 0..31, no flips, either category. (R124, R125) -/
def Obligations.VariantsReachableTiles : Prop :=
  ∀ d : DecodedTile,
    ((∃ c a : Byte, decodeTile .A c a = d) ↔
      d.graphicsCode ≤ 511 ∧ d.colorGroup ≤ 31 ∧
        d.priorityCategory = (if d.colorGroup / 16 = 1 then Category.above else Category.below)) ∧
    ((∃ c a : Byte, decodeTile .B c a = d) ↔
      d.graphicsCode ≤ 1023 ∧ d.colorGroup ≤ 31 ∧ d.flipX = false ∧ d.flipY = false)

/-- For every code and attribute byte: equal groups; equal codes exactly when attribute bit 6 is 0; equal categories
exactly when bits 4 and 7 agree. (R126) -/
def Obligations.VariantsAgreeOnColorGroup : Prop :=
  ∀ c a : Byte,
    (decodeTile .A c a).colorGroup = (decodeTile .B c a).colorGroup ∧
      ((decodeTile .A c a).graphicsCode = (decodeTile .B c a).graphicsCode ↔ a.getLsbD 6 = false) ∧
      ((decodeTile .A c a).priorityCategory = (decodeTile .B c a).priorityCategory ↔ a.getLsbD 4 = a.getLsbD 7)

/-- With off <= 1023, TWC answers a state in which TC:off reads val and sets dirty[off]; every other byte and dirty bit
reads as before, and nothing else changes; with off above that it only reports AddressingFault(TC, off) and marks
the run. (R141) -/
def Obligations.TwcStoresAndMarksDirty : Prop :=
  ∀ (s : State) (off : Nat) (val : Byte),
    (off ≤ 1023 →
      ∃ t, exec (.twc off val) s = .next t ∧ t = { s with tileCode := t.tileCode, dirty := t.dirty } ∧
        (∀ a, t.readTC a = if a = off then val else s.readTC a) ∧
        (∀ a, t.isDirty a = if a = off then true else s.isDirty a)) ∧
    (1023 < off →
      exec (.twc off val) s =
        .next { s with responses := s.responses ++ [.fault (.addressing .TC off)], faultMark := true })

/-- With off <= 1023, TWA answers a state in which TA:off reads val and sets dirty[off]; every other byte and dirty bit
reads as before, and nothing else changes; with off above that it only reports AddressingFault(TA, off) and marks
the run. (R142) -/
def Obligations.TwaStoresAndMarksDirty : Prop :=
  ∀ (s : State) (off : Nat) (val : Byte),
    (off ≤ 1023 →
      ∃ t, exec (.twa off val) s = .next t ∧ t = { s with tileAttr := t.tileAttr, dirty := t.dirty } ∧
        (∀ a, t.readTA a = if a = off then val else s.readTA a) ∧
        (∀ a, t.isDirty a = if a = off then true else s.isDirty a)) ∧
    (1023 < off →
      exec (.twa off val) s =
        .next { s with responses := s.responses ++ [.fault (.addressing .TA off)], faultMark := true })

/-- With off <= 63, SWP answers a state in which SP:off reads val; every other byte reads as before, and nothing else
changes; with off above that it only reports AddressingFault(SP, off) and marks the run. (R160) -/
def Obligations.SwpStoresOneByte : Prop :=
  ∀ (s : State) (off : Nat) (val : Byte),
    (off ≤ 63 →
      ∃ t, exec (.swp off val) s = .next t ∧ t = { s with sprPrimary := t.sprPrimary } ∧
        (∀ a, t.readSP a = if a = off then val else s.readSP a)) ∧
    (63 < off →
      exec (.swp off val) s =
        .next { s with responses := s.responses ++ [.fault (.addressing .SP off)], faultMark := true })

/-- With off <= 63, SWS answers a state in which SS:off reads val; every other byte reads as before, and nothing else
changes; with off above that it only reports AddressingFault(SS, off) and marks the run. (R161) -/
def Obligations.SwsStoresOneByte : Prop :=
  ∀ (s : State) (off : Nat) (val : Byte),
    (off ≤ 63 →
      ∃ t, exec (.sws off val) s = .next t ∧ t = { s with sprSecondary := t.sprSecondary } ∧
        (∀ a, t.readSS a = if a = off then val else s.readSS a)) ∧
    (63 < off →
      exec (.sws off val) s =
        .next { s with responses := s.responses ++ [.fault (.addressing .SS off)], faultMark := true })

/-- For dx, dy in 0..7 TilePen is 4 * group + CHAR_GFX(code, sx, sy) with sx = 7 - dx under flipX and sy = 7 - dy under
flipY; with a group 0..31 it is at most 127. Mirroring the source coordinate and four consecutive pens per group are
the spec's own readings (R143; D9 and D12 of 92_eei_decisions.md). (42_tilemap.md R143) -/
def Obligations.TilePenMirrorsAndSelectsTheGroup : Prop :=
  ∀ (b : Board) (d : DecodedTile) (dx dy : Nat), dx ≤ 7 → dy ≤ 7 →
    tilePen b d dx dy =
        4 * d.colorGroup +
          (b.charPixel d.graphicsCode (if d.flipX then 7 - dx else dx) (if d.flipY then 7 - dy else dy)).toNat ∧
      (d.colorGroup ≤ 31 → tilePen b d dx dy ≤ 127)

/-- For X, Y in 0..255 exactly one t in 0..1023 has X in 8*(t mod 32)..+7 and Y in 8*(t div 32)..+7; tiles 0, 31, 32 and
1023 start at (0,0), (248,0), (0,8) and (248,248). (R144) -/
def Obligations.TilesPartitionTheBuffer : Prop :=
  (∀ X Y : Nat, X ≤ 255 → Y ≤ 255 →
      ∃ t, (t < 1024 ∧ 8 * tileCol t ≤ X ∧ X ≤ 8 * tileCol t + 7 ∧ 8 * tileRow t ≤ Y ∧ Y ≤ 8 * tileRow t + 7) ∧
        ∀ t', t' < 1024 → 8 * tileCol t' ≤ X → X ≤ 8 * tileCol t' + 7 → 8 * tileRow t' ≤ Y →
          Y ≤ 8 * tileRow t' + 7 → t' = t) ∧
  (∀ t, t < 1024 → 8 * tileCol t + 7 ≤ 255 ∧ 8 * tileRow t + 7 ≤ 255 ∧ tileCol t = t % 32 ∧ tileRow t = t / 32) ∧
  (tileCol 0 = 0 ∧ tileRow 0 = 0) ∧ (8 * tileCol 31 = 248 ∧ tileRow 31 = 0) ∧ (tileCol 32 = 0 ∧ 8 * tileRow 32 = 8) ∧
  (8 * tileCol 1023 = 248 ∧ 8 * tileRow 1023 = 248)

/-- A pixel is inside c exactly when minX <= X <= maxX and minY <= Y <= maxY; with inverted bounds none is, every draw
leaves FB as it is in any state, and with a built palette a draw answers the very state it was given; TileMeets(t,
c) holds exactly when some pixel of tile t's block is inside c. (R145) -/
def Obligations.TileMeetsWhenSomePixelIsInside : Prop :=
  ∀ c : Clip,
    (∀ X Y : Nat, insideClip c X Y = true ↔
      (c.minX.toNat ≤ X ∧ X ≤ c.maxX.toNat) ∧ (c.minY.toNat ≤ Y ∧ Y ≤ c.maxY.toNat)) ∧
    (c.maxX.toNat < c.minX.toNat ∨ c.maxY.toNat < c.minY.toNat → ∀ X Y : Nat, insideClip c X Y = false) ∧
    (c.maxX.toNat < c.minX.toNat ∨ c.maxY.toNat < c.minY.toNat → ∀ (s : State) (cat : Category),
      (∀ t, exec (.tmd cat c) s = .next t ∨ exec (.spd c) s = .next t ∨ exec (.rfr c) s = .next t → t.fb = s.fb) ∧
      (s.penValid = true →
        exec (.tmd cat c) s = .next s ∧ exec (.spd c) s = .next s ∧ exec (.rfr c) s = .next s)) ∧
    (∀ t, t < 1024 →
      (tileMeets t c = true ↔
        ∃ dx dy, dx ≤ 7 ∧ dy ≤ 7 ∧ insideClip c (8 * tileCol t + dx) (8 * tileRow t + dy) = true))

/-- With penValid = 1, TMD answers a state that differs at most in FB and the hidden state; dirty[t] is 0 for every tile
that meets the clip, of either category, and as before for every other; every pixel outside the clip is as before.
(42_tilemap.md R146, 42_tilemap.md R147, 42_tilemap.md R151) -/
def Obligations.TmdCleansMeetingTilesOnly : Prop :=
  ∀ (s : State) (cat : Category) (c : Clip), s.penValid = true →
    ∃ t, exec (.tmd cat c) s = .next t ∧
      t = { s with fb := t.fb, dirty := t.dirty, cache := t.cache } ∧
      (∀ a, a < 1024 → t.isDirty a = if tileMeets a c = true then false else s.isDirty a) ∧
      (∀ X Y : Nat, X ≤ 255 → Y ≤ 255 → insideClip c X Y = false → t.pixel X Y = s.pixel X Y)

/-- With penValid = 1 and the cache invariant of R28, TMD answers a state in which each pixel (X, Y) holds the TilePen,
at (X mod 8, Y mod 8), of the tile covering it where it is inside the clip and that tile's decode has the category,
and its old value otherwise. (42_tilemap.md R147, 42_tilemap.md R143, 42_tilemap.md R144, 42_tilemap.md R150,
10_state.md R28) -/
def Obligations.TmdDrawsTilesOfTheCategory : Prop :=
  ∀ (s : State) (cat : Category) (c : Clip), s.penValid = true → s.CacheCoherent →
    ∃ t, exec (.tmd cat c) s = .next t ∧ t.CacheCoherent ∧
      ∀ X Y : Nat, X ≤ 255 → Y ≤ 255 →
        t.pixel X Y =
          if insideClip c X Y = true ∧ (s.tileAt (32 * (Y / 8) + X / 8)).priorityCategory = cat then
            BitVec.ofNat 9 (tilePen s.board (s.tileAt (32 * (Y / 8) + X / 8)) (X % 8) (Y % 8))
          else s.pixel X Y

/-- With penValid = 1 and the cache invariant, after the two category passes every pixel inside the clip holds the pen
of the tile covering it, pixel value 0 included, and every other pixel is as before. (42_tilemap.md R150,
42_tilemap.md R147) -/
def Obligations.BothPassesCoverTheClip : Prop :=
  ∀ (s : State) (c : Clip), s.penValid = true → s.CacheCoherent →
    ∃ t u, exec (.tmd .below c) s = .next t ∧ exec (.tmd .above c) t = .next u ∧
      ∀ X Y : Nat, X ≤ 255 → Y ≤ 255 →
        u.pixel X Y = if insideClip c X Y = true then s.background X Y else s.pixel X Y

/-- From a state with the cache invariant, after any number of steps the machine and the reference machine without dirty
bits and cache are in states that differ at most in dirty and cache: same FB, same responses. (R149) -/
def Obligations.DirtyTrackingEquivalence : Prop :=
  ∀ (n : Nat) (s : State), s.CacheCoherent →
    ∃ t u : State, Host.Core.run core n s = .next t ∧ Host.Core.run coreFresh n s = .next u ∧ State.SameButHidden u t

/-- SpriteAt(o) takes x from SP:o, y = 241 - SS:o+1 in -14..241, code from SP:o+1, group from SS:o bits 5..0, flipX when
SS:o bit 6 is clear, flipY when bit 7 is set. (R163) -/
def Obligations.SpriteOfASlot : Prop :=
  ∀ (s : State) (o : Nat),
    (s.spriteAt o).x = (s.readSP o).toNat ∧
      (s.spriteAt o).y = 241 - ((s.readSS (o + 1)).toNat : Int) ∧
      -14 ≤ (s.spriteAt o).y ∧ (s.spriteAt o).y ≤ 241 ∧
      (s.spriteAt o).graphicsCode = (s.readSP (o + 1)).toNat ∧
      (s.spriteAt o).colorGroup = (s.readSS o).toNat % 64 ∧
      (s.spriteAt o).flipX = !((s.readSS o).getLsbD 6) ∧ (s.spriteAt o).flipY = (s.readSS o).getLsbD 7

/-- An offset is drawn exactly when it is even and in 0x10..0x3e; there are 24, each smaller than the one before.
(43_sprites.md R165, 43_sprites.md R166, 90_conflicts.md C1) -/
def Obligations.SlotsInDescendingOrder : Prop :=
  (∀ o : Nat, o ∈ spriteSlots ↔ o % 2 = 0 ∧ 0x10 ≤ o ∧ o ≤ 0x3e) ∧ spriteSlots.length = 24 ∧
  spriteSlots.Pairwise (fun a b => b < a)

/-- With penValid = 1 SPD answers a state that differs at most in FB. Inside the clip: if no slot's sprite covers the
pixel with a non-zero value it is unchanged; otherwise it is 128 + 4 * group + pix of the sprite at the least such
offset. Outside the clip every pixel is unchanged. (R167) -/
def Obligations.SpdLowestOpaqueSlotWins : Prop :=
  ∀ (s : State) (c : Clip), s.penValid = true →
    ∃ t, exec (.spd c) s = .next t ∧ t = { s with fb := t.fb } ∧
      ∀ X Y : Nat, X ≤ 255 → Y ≤ 255 →
        (insideClip c X Y = false → t.pixel X Y = s.pixel X Y) ∧
        (insideClip c X Y = true → (∀ o ∈ spriteSlots, s.spriteShows o X Y = none) → t.pixel X Y = s.pixel X Y) ∧
        (insideClip c X Y = true → ∀ o ∈ spriteSlots, ∀ p : Sprite, p = s.spriteAt o → ∀ dx dy : Nat,
          X = p.x + dx → (Y : Int) = p.y + dy → dx < s.board.spriteW → dy < s.board.spriteH →
          ∀ pix : Pixel,
            pix = s.board.spritePixel p.graphicsCode (if p.flipX then s.board.spriteW - 1 - dx else dx)
              (if p.flipY then s.board.spriteH - 1 - dy else dy) →
            pix ≠ 0#2 →
            (∀ o' ∈ spriteSlots, o' < o → s.spriteShows o' X Y = none) →
            (t.pixel X Y).toNat = 128 + 4 * p.colorGroup + pix.toNat)

/-- Writing any byte at an offset below 0x10 of SP or SS before a draw gives the frame buffer and the responses the draw
gives without it, for TMD, SPD and RFR. (10_state.md R29, 30_encoding.md R78) -/
def Obligations.LowSpriteOffsetsAreNeverRead : Prop :=
  ∀ (s : State) (off : Nat) (val : Byte) (cat : Category) (c : Clip) (i : Instr), off < 0x10 →
    i = .tmd cat c ∨ i = .spd c ∨ i = .rfr c →
    ∃ t tp ts, exec i s = .next t ∧ exec i (s.writeSP off val) = .next tp ∧ exec i (s.writeSS off val) = .next ts ∧
      tp.fb = t.fb ∧ ts.fb = t.fb ∧ tp.responses = t.responses ∧ ts.responses = t.responses

/-- For every state and flag, VEN answers the state with videoEnable replaced. (R182) -/
def Obligations.VenLatchesVideoEnable : Prop :=
  ∀ (s : State) (f : Bool), exec (.ven f) s = .next { s with videoEnable := f }

/-- For every state and flag, FLP answers the state with flipScreen replaced; the step of a state with another
flipScreen answers the same state, flipScreen apart: no pixel, response or other element depends on it. (R183) -/
def Obligations.FlpLatchesAFlagNothingReads : Prop :=
  (∀ (s : State) (f : Bool), exec (.flp f) s = .next { s with flipScreen := f }) ∧
  (∀ (s : State) (f : Bool),
    ∃ t u, step s = .next t ∧ step { s with flipScreen := f } = .next u ∧ { u with flipScreen := t.flipScreen } = t)

/-- RSL answers the state with one scanline response appended, a byte the oracle gives (a free value, log entry 10), and
the model's own draw counter advanced; nothing else changes. (44_frame.md R184, 60_exceptions.md R214) -/
def Obligations.RslRespondsWithAFreeValue : Prop :=
  ∀ s : State, ∃ v : Byte,
    exec .rsl s = .next { s with responses := s.responses ++ [.scanline v], scanDraws := s.scanDraws + 1 }

/-- With penValid = 1 and videoEnable = 0, RFR answers the very state it was given: no pixel, dirty bit or cache entry
changes. (R186) -/
def Obligations.DisabledFrameWritesNothing : Prop :=
  ∀ (s : State) (c : Clip), s.penValid = true → s.videoEnable = false → exec (.rfr c) s = .next s

/-- With penValid = 0 RFR only reports PaletteNotBuilt and marks the run; with video disabled it answers the state
unchanged; otherwise it answers the state after TMD 0 c, then SPD c, then TMD 1 c. (R185) -/
def Obligations.FrameIsThreePassesInOrder : Prop :=
  ∀ (s : State) (c : Clip),
    (s.penValid = false →
      exec (.rfr c) s = .next { s with responses := s.responses ++ [.fault .paletteNotBuilt], faultMark := true }) ∧
    (s.penValid = true → s.videoEnable = false → exec (.rfr c) s = .next s) ∧
    (s.penValid = true → s.videoEnable = true →
      ∃ t1 t2 t3, exec (.tmd .below c) s = .next t1 ∧ exec (.spd c) t1 = .next t2 ∧
        exec (.tmd .above c) t2 = .next t3 ∧ exec (.rfr c) s = .next t3)

/-- With penValid = 1, videoEnable = 1 and the cache invariant, RFR answers a state that differs at most in FB and the
hidden state, in which every pixel inside the clip holds Mux(X, Y) computed from the memories before the command,
and every other pixel is as before. (R187) -/
def Obligations.FrameIsThePriorityMux : Prop :=
  ∀ (s : State) (c : Clip), s.penValid = true → s.videoEnable = true → s.CacheCoherent →
    ∃ t, exec (.rfr c) s = .next t ∧ t = { s with fb := t.fb, dirty := t.dirty, cache := t.cache } ∧
      ∀ X Y : Nat, X ≤ 255 → Y ≤ 255 →
        t.pixel X Y = if insideClip c X Y = true then s.mux X Y else s.pixel X Y

/-- With penValid = 1, videoEnable = 1 and the cache invariant, RFR answers a state in which a pixel inside the clip
with a value of 128 or more is covered by a tile of category 0. (R188) -/
def Obligations.SpritePensOnlyOverCategoryZero : Prop :=
  ∀ (s : State) (c : Clip), s.penValid = true → s.videoEnable = true → s.CacheCoherent →
    ∃ t, exec (.rfr c) s = .next t ∧
      ∀ X Y : Nat, X ≤ 255 → Y ≤ 255 → insideClip c X Y = true → 128 ≤ (t.pixel X Y).toNat →
        (s.tileAt (32 * (Y / 8) + X / 8)).priorityCategory = .below

/-- With the invariant, whatever board the last PLD found, penValid = 1 and videoEnable = 1: after RFR c, then any
commands none of which is TWC, TWA, SWP or SWS, then RFR c again with videoEnable = 1, every pixel inside c is as
after the first RFR, and the whole buffer is, if the commands between left the pixels outside c as they were. That a
draw between the two with another clip may change pixels outside c, which the second RFR leaves, follows from R187.
(44_frame.md R189) -/
def Obligations.FrameIsReproducible : Prop :=
  ∀ (b : Board) (s : State) (c : Clip) (between : List Instr), s.InvFrom b → s.penValid = true →
    s.videoEnable = true → (∀ i ∈ between, isWrite i = false) →
    ∃ t u, exec (.rfr c) s = .next t ∧ execAll between t = .next u ∧
      (u.videoEnable = true →
        ∃ v, exec (.rfr c) u = .next v ∧
          (∀ X Y : Nat, X ≤ 255 → Y ≤ 255 → insideClip c X Y = true → v.pixel X Y = t.pixel X Y) ∧
          ((∀ X Y : Nat, X ≤ 255 → Y ≤ 255 → insideClip c X Y = false → u.pixel X Y = t.pixel X Y) → v.fb = t.fb))

/-- Two states with the same tile and sprite memories and the same VARIANT, graphics data and sprite cell size, whatever
their PROMs, PROM layout, palettes, frame buffers, dirty bits, caches, flipScreen and history, show the same pixels
inside the clip after RFR (both enabled, built and coherent). (R191) -/
def Obligations.FrameForgetsThePreviousBuffer : Prop :=
  ∀ (s s' : State) (c : Clip), s.penValid = true → s'.penValid = true → s.videoEnable = true → s'.videoEnable = true →
    s.CacheCoherent → s'.CacheCoherent → s'.board.variant = s.board.variant → s'.board.spriteW = s.board.spriteW →
    s'.board.spriteH = s.board.spriteH → s'.board.charGfx = s.board.charGfx →
    s'.board.spriteGfx = s.board.spriteGfx → s'.tileCode = s.tileCode → s'.tileAttr = s.tileAttr → s'.sprPrimary = s.sprPrimary → s'.sprSecondary = s.sprSecondary →
    ∃ t t', exec (.rfr c) s = .next t ∧ exec (.rfr c) s' = .next t' ∧
      ∀ X Y : Nat, X ≤ 255 → Y ≤ 255 → insideClip c X Y = true → t'.pixel X Y = t.pixel X Y

/-- With the cache invariant, after any completed TMD every pixel is as before or 0..127; after SPD as before or
129..383 and not a multiple of 4; after RFR one of the three. (R190) -/
def Obligations.DrawsWriteOnlyTheirPens : Prop :=
  ∀ (s t : State) (cat : Category) (c : Clip) (X Y : Nat), s.CacheCoherent → X ≤ 255 → Y ≤ 255 →
    (exec (.tmd cat c) s = .next t → t.pixel X Y = s.pixel X Y ∨ (t.pixel X Y).toNat ≤ 127) ∧
    (exec (.spd c) s = .next t → t.pixel X Y = s.pixel X Y ∨
      (129 ≤ (t.pixel X Y).toNat ∧ (t.pixel X Y).toNat ≤ 383 ∧ (t.pixel X Y).toNat % 4 ≠ 0)) ∧
    (exec (.rfr c) s = .next t → t.pixel X Y = s.pixel X Y ∨ (t.pixel X Y).toNat ≤ 127 ∨
      (129 ≤ (t.pixel X Y).toNat ∧ (t.pixel X Y).toNat ≤ 383 ∧ (t.pixel X Y).toNat % 4 ≠ 0))

/-- FB changes only under TMD, SPD and RFR; BASE, PEN and penValid only under PLD; TC only under TWC, TA under TWA, SP
under SWP, SS under SWS; the dirty bits only under TWC, TWA, TMD and RFR; the cache only under TMD and RFR;
videoEnable only under VEN and flipScreen only under FLP. (10_state.md R33, 70_reset_and_hazards.md R235,
42_tilemap.md R151, 43_sprites.md R162) -/
def Obligations.OnlyDrawsWriteTheBuffer : Prop :=
  ∀ (i : Instr) (s t : State), exec i s = .next t →
    ((∀ cat c, i ≠ .tmd cat c) → (∀ c, i ≠ .spd c) → (∀ c, i ≠ .rfr c) → t.fb = s.fb) ∧
    (i ≠ .pld → t.base = s.base ∧ t.pen = s.pen ∧ t.penValid = s.penValid) ∧
    ((∀ off val, i ≠ .twc off val) → t.tileCode = s.tileCode) ∧
    ((∀ off val, i ≠ .twa off val) → t.tileAttr = s.tileAttr) ∧
    ((∀ off val, i ≠ .swp off val) → t.sprPrimary = s.sprPrimary) ∧
    ((∀ off val, i ≠ .sws off val) → t.sprSecondary = s.sprSecondary) ∧
    ((∀ off val, i ≠ .twc off val) → (∀ off val, i ≠ .twa off val) → (∀ cat c, i ≠ .tmd cat c) →
      (∀ c, i ≠ .rfr c) → t.dirty = s.dirty) ∧
    ((∀ cat c, i ≠ .tmd cat c) → (∀ c, i ≠ .rfr c) → t.cache = s.cache) ∧
    ((∀ f, i ≠ .ven f) → t.videoEnable = s.videoEnable) ∧
    ((∀ f, i ≠ .flp f) → t.flipScreen = s.flipScreen)

/-- The step of a state with any other frame buffer answers the same state, FB apart, and an entry the host writes reads
back. (20_memory.md R60, 70_reset_and_hazards.md R246) -/
def Obligations.CoreNeverReadsTheBuffer : Prop :=
  (∀ (s : State) (fb : Buffer),
      ∃ t u, step s = .next t ∧ step { s with fb := fb } = .next u ∧ { u with fb := t.fb } = t) ∧
  (∀ (s : State) (x y : Byte) (p : Pen) (X Y : Nat), X ≤ 255 → Y ≤ 255 →
      (s.hostAct (.pokePixel x y p)).pixel X Y = if X = x.toNat ∧ Y = y.toNat then p else s.pixel X Y)

/-- If the host issues one more word, the next step of a non-empty stream answers the state it would have answered, with
that word still waiting behind the others. (20_memory.md R57, 20_memory.md R61) -/
def Obligations.CommandsRunInOrderOfIssue : Prop :=
  ∀ (s : State) (w : CommandWord), s.pending ≠ [] →
    ∃ t, step s = .next t ∧ step (s.hostAct (.issue w)) = .next (t.hostAct (.issue w))
end

