-- ==== Sys2Proof/Laws/State.lean ====
section
/-!
SUPPORT. One lemma per field per update of the state, so that no proof unfolds a record update.
-/

namespace Sys2Proof.Machine

/-! ## respond -/

@[simp] theorem State.respond_board (s : State) (r : Response) : (s.respond r).board = s.board := rfl
@[simp] theorem State.respond_base (s : State) (r : Response) : (s.respond r).base = s.base := rfl
@[simp] theorem State.respond_pen (s : State) (r : Response) : (s.respond r).pen = s.pen := rfl
@[simp] theorem State.respond_penValid (s : State) (r : Response) : (s.respond r).penValid = s.penValid := rfl
@[simp] theorem State.respond_tileCode (s : State) (r : Response) : (s.respond r).tileCode = s.tileCode := rfl
@[simp] theorem State.respond_tileAttr (s : State) (r : Response) : (s.respond r).tileAttr = s.tileAttr := rfl
@[simp] theorem State.respond_dirty (s : State) (r : Response) : (s.respond r).dirty = s.dirty := rfl
@[simp] theorem State.respond_cache (s : State) (r : Response) : (s.respond r).cache = s.cache := rfl
@[simp] theorem State.respond_sprPrimary (s : State) (r : Response) : (s.respond r).sprPrimary = s.sprPrimary := rfl
@[simp] theorem State.respond_sprSecondary (s : State) (r : Response) : (s.respond r).sprSecondary = s.sprSecondary := rfl
@[simp] theorem State.respond_videoEnable (s : State) (r : Response) : (s.respond r).videoEnable = s.videoEnable := rfl
@[simp] theorem State.respond_flipScreen (s : State) (r : Response) : (s.respond r).flipScreen = s.flipScreen := rfl
@[simp] theorem State.respond_fb (s : State) (r : Response) : (s.respond r).fb = s.fb := rfl
@[simp] theorem State.respond_pending (s : State) (r : Response) : (s.respond r).pending = s.pending := rfl
@[simp] theorem State.respond_responses (s : State) (r : Response) : (s.respond r).responses = s.responses ++ [r] := rfl
@[simp] theorem State.respond_faultMark (s : State) (r : Response) : (s.respond r).faultMark = s.faultMark := rfl
@[simp] theorem State.respond_scanDraws (s : State) (r : Response) : (s.respond r).scanDraws = s.scanDraws := rfl

/-! ## takeFault -/

@[simp] theorem State.takeFault_board (s : State) (f : Fault) : (s.takeFault f).board = s.board := rfl
@[simp] theorem State.takeFault_base (s : State) (f : Fault) : (s.takeFault f).base = s.base := rfl
@[simp] theorem State.takeFault_pen (s : State) (f : Fault) : (s.takeFault f).pen = s.pen := rfl
@[simp] theorem State.takeFault_penValid (s : State) (f : Fault) : (s.takeFault f).penValid = s.penValid := rfl
@[simp] theorem State.takeFault_tileCode (s : State) (f : Fault) : (s.takeFault f).tileCode = s.tileCode := rfl
@[simp] theorem State.takeFault_tileAttr (s : State) (f : Fault) : (s.takeFault f).tileAttr = s.tileAttr := rfl
@[simp] theorem State.takeFault_dirty (s : State) (f : Fault) : (s.takeFault f).dirty = s.dirty := rfl
@[simp] theorem State.takeFault_cache (s : State) (f : Fault) : (s.takeFault f).cache = s.cache := rfl
@[simp] theorem State.takeFault_sprPrimary (s : State) (f : Fault) : (s.takeFault f).sprPrimary = s.sprPrimary := rfl
@[simp] theorem State.takeFault_sprSecondary (s : State) (f : Fault) : (s.takeFault f).sprSecondary = s.sprSecondary := rfl
@[simp] theorem State.takeFault_videoEnable (s : State) (f : Fault) : (s.takeFault f).videoEnable = s.videoEnable := rfl
@[simp] theorem State.takeFault_flipScreen (s : State) (f : Fault) : (s.takeFault f).flipScreen = s.flipScreen := rfl
@[simp] theorem State.takeFault_fb (s : State) (f : Fault) : (s.takeFault f).fb = s.fb := rfl
@[simp] theorem State.takeFault_pending (s : State) (f : Fault) : (s.takeFault f).pending = s.pending := rfl
@[simp] theorem State.takeFault_responses (s : State) (f : Fault) : (s.takeFault f).responses = s.responses ++ [.fault f] := rfl
@[simp] theorem State.takeFault_faultMark (s : State) (f : Fault) : (s.takeFault f).faultMark = true := rfl
@[simp] theorem State.takeFault_scanDraws (s : State) (f : Fault) : (s.takeFault f).scanDraws = s.scanDraws := rfl

/-! ## writeTC -/

@[simp] theorem State.writeTC_board (s : State) (t : Nat) (v : Byte) : (s.writeTC t v).board = s.board := rfl
@[simp] theorem State.writeTC_base (s : State) (t : Nat) (v : Byte) : (s.writeTC t v).base = s.base := rfl
@[simp] theorem State.writeTC_pen (s : State) (t : Nat) (v : Byte) : (s.writeTC t v).pen = s.pen := rfl
@[simp] theorem State.writeTC_penValid (s : State) (t : Nat) (v : Byte) : (s.writeTC t v).penValid = s.penValid := rfl
@[simp] theorem State.writeTC_tileCode (s : State) (t : Nat) (v : Byte) : (s.writeTC t v).tileCode = Store.write unwrittenByte s.tileCode t v := rfl
@[simp] theorem State.writeTC_tileAttr (s : State) (t : Nat) (v : Byte) : (s.writeTC t v).tileAttr = s.tileAttr := rfl
@[simp] theorem State.writeTC_dirty (s : State) (t : Nat) (v : Byte) : (s.writeTC t v).dirty = s.dirty := rfl
@[simp] theorem State.writeTC_cache (s : State) (t : Nat) (v : Byte) : (s.writeTC t v).cache = s.cache := rfl
@[simp] theorem State.writeTC_sprPrimary (s : State) (t : Nat) (v : Byte) : (s.writeTC t v).sprPrimary = s.sprPrimary := rfl
@[simp] theorem State.writeTC_sprSecondary (s : State) (t : Nat) (v : Byte) : (s.writeTC t v).sprSecondary = s.sprSecondary := rfl
@[simp] theorem State.writeTC_videoEnable (s : State) (t : Nat) (v : Byte) : (s.writeTC t v).videoEnable = s.videoEnable := rfl
@[simp] theorem State.writeTC_flipScreen (s : State) (t : Nat) (v : Byte) : (s.writeTC t v).flipScreen = s.flipScreen := rfl
@[simp] theorem State.writeTC_fb (s : State) (t : Nat) (v : Byte) : (s.writeTC t v).fb = s.fb := rfl
@[simp] theorem State.writeTC_pending (s : State) (t : Nat) (v : Byte) : (s.writeTC t v).pending = s.pending := rfl
@[simp] theorem State.writeTC_responses (s : State) (t : Nat) (v : Byte) : (s.writeTC t v).responses = s.responses := rfl
@[simp] theorem State.writeTC_faultMark (s : State) (t : Nat) (v : Byte) : (s.writeTC t v).faultMark = s.faultMark := rfl
@[simp] theorem State.writeTC_scanDraws (s : State) (t : Nat) (v : Byte) : (s.writeTC t v).scanDraws = s.scanDraws := rfl

/-! ## writeTA -/

@[simp] theorem State.writeTA_board (s : State) (t : Nat) (v : Byte) : (s.writeTA t v).board = s.board := rfl
@[simp] theorem State.writeTA_base (s : State) (t : Nat) (v : Byte) : (s.writeTA t v).base = s.base := rfl
@[simp] theorem State.writeTA_pen (s : State) (t : Nat) (v : Byte) : (s.writeTA t v).pen = s.pen := rfl
@[simp] theorem State.writeTA_penValid (s : State) (t : Nat) (v : Byte) : (s.writeTA t v).penValid = s.penValid := rfl
@[simp] theorem State.writeTA_tileCode (s : State) (t : Nat) (v : Byte) : (s.writeTA t v).tileCode = s.tileCode := rfl
@[simp] theorem State.writeTA_tileAttr (s : State) (t : Nat) (v : Byte) : (s.writeTA t v).tileAttr = Store.write unwrittenByte s.tileAttr t v := rfl
@[simp] theorem State.writeTA_dirty (s : State) (t : Nat) (v : Byte) : (s.writeTA t v).dirty = s.dirty := rfl
@[simp] theorem State.writeTA_cache (s : State) (t : Nat) (v : Byte) : (s.writeTA t v).cache = s.cache := rfl
@[simp] theorem State.writeTA_sprPrimary (s : State) (t : Nat) (v : Byte) : (s.writeTA t v).sprPrimary = s.sprPrimary := rfl
@[simp] theorem State.writeTA_sprSecondary (s : State) (t : Nat) (v : Byte) : (s.writeTA t v).sprSecondary = s.sprSecondary := rfl
@[simp] theorem State.writeTA_videoEnable (s : State) (t : Nat) (v : Byte) : (s.writeTA t v).videoEnable = s.videoEnable := rfl
@[simp] theorem State.writeTA_flipScreen (s : State) (t : Nat) (v : Byte) : (s.writeTA t v).flipScreen = s.flipScreen := rfl
@[simp] theorem State.writeTA_fb (s : State) (t : Nat) (v : Byte) : (s.writeTA t v).fb = s.fb := rfl
@[simp] theorem State.writeTA_pending (s : State) (t : Nat) (v : Byte) : (s.writeTA t v).pending = s.pending := rfl
@[simp] theorem State.writeTA_responses (s : State) (t : Nat) (v : Byte) : (s.writeTA t v).responses = s.responses := rfl
@[simp] theorem State.writeTA_faultMark (s : State) (t : Nat) (v : Byte) : (s.writeTA t v).faultMark = s.faultMark := rfl
@[simp] theorem State.writeTA_scanDraws (s : State) (t : Nat) (v : Byte) : (s.writeTA t v).scanDraws = s.scanDraws := rfl

/-! ## writeSP -/

@[simp] theorem State.writeSP_board (s : State) (o : Nat) (v : Byte) : (s.writeSP o v).board = s.board := rfl
@[simp] theorem State.writeSP_base (s : State) (o : Nat) (v : Byte) : (s.writeSP o v).base = s.base := rfl
@[simp] theorem State.writeSP_pen (s : State) (o : Nat) (v : Byte) : (s.writeSP o v).pen = s.pen := rfl
@[simp] theorem State.writeSP_penValid (s : State) (o : Nat) (v : Byte) : (s.writeSP o v).penValid = s.penValid := rfl
@[simp] theorem State.writeSP_tileCode (s : State) (o : Nat) (v : Byte) : (s.writeSP o v).tileCode = s.tileCode := rfl
@[simp] theorem State.writeSP_tileAttr (s : State) (o : Nat) (v : Byte) : (s.writeSP o v).tileAttr = s.tileAttr := rfl
@[simp] theorem State.writeSP_dirty (s : State) (o : Nat) (v : Byte) : (s.writeSP o v).dirty = s.dirty := rfl
@[simp] theorem State.writeSP_cache (s : State) (o : Nat) (v : Byte) : (s.writeSP o v).cache = s.cache := rfl
@[simp] theorem State.writeSP_sprPrimary (s : State) (o : Nat) (v : Byte) : (s.writeSP o v).sprPrimary = Store.write unwrittenByte s.sprPrimary o v := rfl
@[simp] theorem State.writeSP_sprSecondary (s : State) (o : Nat) (v : Byte) : (s.writeSP o v).sprSecondary = s.sprSecondary := rfl
@[simp] theorem State.writeSP_videoEnable (s : State) (o : Nat) (v : Byte) : (s.writeSP o v).videoEnable = s.videoEnable := rfl
@[simp] theorem State.writeSP_flipScreen (s : State) (o : Nat) (v : Byte) : (s.writeSP o v).flipScreen = s.flipScreen := rfl
@[simp] theorem State.writeSP_fb (s : State) (o : Nat) (v : Byte) : (s.writeSP o v).fb = s.fb := rfl
@[simp] theorem State.writeSP_pending (s : State) (o : Nat) (v : Byte) : (s.writeSP o v).pending = s.pending := rfl
@[simp] theorem State.writeSP_responses (s : State) (o : Nat) (v : Byte) : (s.writeSP o v).responses = s.responses := rfl
@[simp] theorem State.writeSP_faultMark (s : State) (o : Nat) (v : Byte) : (s.writeSP o v).faultMark = s.faultMark := rfl
@[simp] theorem State.writeSP_scanDraws (s : State) (o : Nat) (v : Byte) : (s.writeSP o v).scanDraws = s.scanDraws := rfl

/-! ## writeSS -/

@[simp] theorem State.writeSS_board (s : State) (o : Nat) (v : Byte) : (s.writeSS o v).board = s.board := rfl
@[simp] theorem State.writeSS_base (s : State) (o : Nat) (v : Byte) : (s.writeSS o v).base = s.base := rfl
@[simp] theorem State.writeSS_pen (s : State) (o : Nat) (v : Byte) : (s.writeSS o v).pen = s.pen := rfl
@[simp] theorem State.writeSS_penValid (s : State) (o : Nat) (v : Byte) : (s.writeSS o v).penValid = s.penValid := rfl
@[simp] theorem State.writeSS_tileCode (s : State) (o : Nat) (v : Byte) : (s.writeSS o v).tileCode = s.tileCode := rfl
@[simp] theorem State.writeSS_tileAttr (s : State) (o : Nat) (v : Byte) : (s.writeSS o v).tileAttr = s.tileAttr := rfl
@[simp] theorem State.writeSS_dirty (s : State) (o : Nat) (v : Byte) : (s.writeSS o v).dirty = s.dirty := rfl
@[simp] theorem State.writeSS_cache (s : State) (o : Nat) (v : Byte) : (s.writeSS o v).cache = s.cache := rfl
@[simp] theorem State.writeSS_sprPrimary (s : State) (o : Nat) (v : Byte) : (s.writeSS o v).sprPrimary = s.sprPrimary := rfl
@[simp] theorem State.writeSS_sprSecondary (s : State) (o : Nat) (v : Byte) : (s.writeSS o v).sprSecondary = Store.write unwrittenByte s.sprSecondary o v := rfl
@[simp] theorem State.writeSS_videoEnable (s : State) (o : Nat) (v : Byte) : (s.writeSS o v).videoEnable = s.videoEnable := rfl
@[simp] theorem State.writeSS_flipScreen (s : State) (o : Nat) (v : Byte) : (s.writeSS o v).flipScreen = s.flipScreen := rfl
@[simp] theorem State.writeSS_fb (s : State) (o : Nat) (v : Byte) : (s.writeSS o v).fb = s.fb := rfl
@[simp] theorem State.writeSS_pending (s : State) (o : Nat) (v : Byte) : (s.writeSS o v).pending = s.pending := rfl
@[simp] theorem State.writeSS_responses (s : State) (o : Nat) (v : Byte) : (s.writeSS o v).responses = s.responses := rfl
@[simp] theorem State.writeSS_faultMark (s : State) (o : Nat) (v : Byte) : (s.writeSS o v).faultMark = s.faultMark := rfl
@[simp] theorem State.writeSS_scanDraws (s : State) (o : Nat) (v : Byte) : (s.writeSS o v).scanDraws = s.scanDraws := rfl

/-! ## writeCache -/

@[simp] theorem State.writeCache_board (s : State) (t : Nat) (d : DecodedTile) : (s.writeCache t d).board = s.board := rfl
@[simp] theorem State.writeCache_base (s : State) (t : Nat) (d : DecodedTile) : (s.writeCache t d).base = s.base := rfl
@[simp] theorem State.writeCache_pen (s : State) (t : Nat) (d : DecodedTile) : (s.writeCache t d).pen = s.pen := rfl
@[simp] theorem State.writeCache_penValid (s : State) (t : Nat) (d : DecodedTile) : (s.writeCache t d).penValid = s.penValid := rfl
@[simp] theorem State.writeCache_tileCode (s : State) (t : Nat) (d : DecodedTile) : (s.writeCache t d).tileCode = s.tileCode := rfl
@[simp] theorem State.writeCache_tileAttr (s : State) (t : Nat) (d : DecodedTile) : (s.writeCache t d).tileAttr = s.tileAttr := rfl
@[simp] theorem State.writeCache_dirty (s : State) (t : Nat) (d : DecodedTile) : (s.writeCache t d).dirty = s.dirty := rfl
@[simp] theorem State.writeCache_cache (s : State) (t : Nat) (d : DecodedTile) : (s.writeCache t d).cache = Store.write DecodedTile.zero s.cache t d := rfl
@[simp] theorem State.writeCache_sprPrimary (s : State) (t : Nat) (d : DecodedTile) : (s.writeCache t d).sprPrimary = s.sprPrimary := rfl
@[simp] theorem State.writeCache_sprSecondary (s : State) (t : Nat) (d : DecodedTile) : (s.writeCache t d).sprSecondary = s.sprSecondary := rfl
@[simp] theorem State.writeCache_videoEnable (s : State) (t : Nat) (d : DecodedTile) : (s.writeCache t d).videoEnable = s.videoEnable := rfl
@[simp] theorem State.writeCache_flipScreen (s : State) (t : Nat) (d : DecodedTile) : (s.writeCache t d).flipScreen = s.flipScreen := rfl
@[simp] theorem State.writeCache_fb (s : State) (t : Nat) (d : DecodedTile) : (s.writeCache t d).fb = s.fb := rfl
@[simp] theorem State.writeCache_pending (s : State) (t : Nat) (d : DecodedTile) : (s.writeCache t d).pending = s.pending := rfl
@[simp] theorem State.writeCache_responses (s : State) (t : Nat) (d : DecodedTile) : (s.writeCache t d).responses = s.responses := rfl
@[simp] theorem State.writeCache_faultMark (s : State) (t : Nat) (d : DecodedTile) : (s.writeCache t d).faultMark = s.faultMark := rfl
@[simp] theorem State.writeCache_scanDraws (s : State) (t : Nat) (d : DecodedTile) : (s.writeCache t d).scanDraws = s.scanDraws := rfl

/-! ## markDirty -/

@[simp] theorem State.markDirty_board (s : State) (t : Nat) : (s.markDirty t).board = s.board := rfl
@[simp] theorem State.markDirty_base (s : State) (t : Nat) : (s.markDirty t).base = s.base := rfl
@[simp] theorem State.markDirty_pen (s : State) (t : Nat) : (s.markDirty t).pen = s.pen := rfl
@[simp] theorem State.markDirty_penValid (s : State) (t : Nat) : (s.markDirty t).penValid = s.penValid := rfl
@[simp] theorem State.markDirty_tileCode (s : State) (t : Nat) : (s.markDirty t).tileCode = s.tileCode := rfl
@[simp] theorem State.markDirty_tileAttr (s : State) (t : Nat) : (s.markDirty t).tileAttr = s.tileAttr := rfl
@[simp] theorem State.markDirty_dirty (s : State) (t : Nat) : (s.markDirty t).dirty = Store.write true s.dirty t true := rfl
@[simp] theorem State.markDirty_cache (s : State) (t : Nat) : (s.markDirty t).cache = s.cache := rfl
@[simp] theorem State.markDirty_sprPrimary (s : State) (t : Nat) : (s.markDirty t).sprPrimary = s.sprPrimary := rfl
@[simp] theorem State.markDirty_sprSecondary (s : State) (t : Nat) : (s.markDirty t).sprSecondary = s.sprSecondary := rfl
@[simp] theorem State.markDirty_videoEnable (s : State) (t : Nat) : (s.markDirty t).videoEnable = s.videoEnable := rfl
@[simp] theorem State.markDirty_flipScreen (s : State) (t : Nat) : (s.markDirty t).flipScreen = s.flipScreen := rfl
@[simp] theorem State.markDirty_fb (s : State) (t : Nat) : (s.markDirty t).fb = s.fb := rfl
@[simp] theorem State.markDirty_pending (s : State) (t : Nat) : (s.markDirty t).pending = s.pending := rfl
@[simp] theorem State.markDirty_responses (s : State) (t : Nat) : (s.markDirty t).responses = s.responses := rfl
@[simp] theorem State.markDirty_faultMark (s : State) (t : Nat) : (s.markDirty t).faultMark = s.faultMark := rfl
@[simp] theorem State.markDirty_scanDraws (s : State) (t : Nat) : (s.markDirty t).scanDraws = s.scanDraws := rfl

/-! ## markClean -/

@[simp] theorem State.markClean_board (s : State) (t : Nat) : (s.markClean t).board = s.board := rfl
@[simp] theorem State.markClean_base (s : State) (t : Nat) : (s.markClean t).base = s.base := rfl
@[simp] theorem State.markClean_pen (s : State) (t : Nat) : (s.markClean t).pen = s.pen := rfl
@[simp] theorem State.markClean_penValid (s : State) (t : Nat) : (s.markClean t).penValid = s.penValid := rfl
@[simp] theorem State.markClean_tileCode (s : State) (t : Nat) : (s.markClean t).tileCode = s.tileCode := rfl
@[simp] theorem State.markClean_tileAttr (s : State) (t : Nat) : (s.markClean t).tileAttr = s.tileAttr := rfl
@[simp] theorem State.markClean_dirty (s : State) (t : Nat) : (s.markClean t).dirty = Store.write true s.dirty t false := rfl
@[simp] theorem State.markClean_cache (s : State) (t : Nat) : (s.markClean t).cache = s.cache := rfl
@[simp] theorem State.markClean_sprPrimary (s : State) (t : Nat) : (s.markClean t).sprPrimary = s.sprPrimary := rfl
@[simp] theorem State.markClean_sprSecondary (s : State) (t : Nat) : (s.markClean t).sprSecondary = s.sprSecondary := rfl
@[simp] theorem State.markClean_videoEnable (s : State) (t : Nat) : (s.markClean t).videoEnable = s.videoEnable := rfl
@[simp] theorem State.markClean_flipScreen (s : State) (t : Nat) : (s.markClean t).flipScreen = s.flipScreen := rfl
@[simp] theorem State.markClean_fb (s : State) (t : Nat) : (s.markClean t).fb = s.fb := rfl
@[simp] theorem State.markClean_pending (s : State) (t : Nat) : (s.markClean t).pending = s.pending := rfl
@[simp] theorem State.markClean_responses (s : State) (t : Nat) : (s.markClean t).responses = s.responses := rfl
@[simp] theorem State.markClean_faultMark (s : State) (t : Nat) : (s.markClean t).faultMark = s.faultMark := rfl
@[simp] theorem State.markClean_scanDraws (s : State) (t : Nat) : (s.markClean t).scanDraws = s.scanDraws := rfl

/-! ## setVideoEnable -/

@[simp] theorem State.setVideoEnable_board (s : State) (f : Bool) : (s.setVideoEnable f).board = s.board := rfl
@[simp] theorem State.setVideoEnable_base (s : State) (f : Bool) : (s.setVideoEnable f).base = s.base := rfl
@[simp] theorem State.setVideoEnable_pen (s : State) (f : Bool) : (s.setVideoEnable f).pen = s.pen := rfl
@[simp] theorem State.setVideoEnable_penValid (s : State) (f : Bool) : (s.setVideoEnable f).penValid = s.penValid := rfl
@[simp] theorem State.setVideoEnable_tileCode (s : State) (f : Bool) : (s.setVideoEnable f).tileCode = s.tileCode := rfl
@[simp] theorem State.setVideoEnable_tileAttr (s : State) (f : Bool) : (s.setVideoEnable f).tileAttr = s.tileAttr := rfl
@[simp] theorem State.setVideoEnable_dirty (s : State) (f : Bool) : (s.setVideoEnable f).dirty = s.dirty := rfl
@[simp] theorem State.setVideoEnable_cache (s : State) (f : Bool) : (s.setVideoEnable f).cache = s.cache := rfl
@[simp] theorem State.setVideoEnable_sprPrimary (s : State) (f : Bool) : (s.setVideoEnable f).sprPrimary = s.sprPrimary := rfl
@[simp] theorem State.setVideoEnable_sprSecondary (s : State) (f : Bool) : (s.setVideoEnable f).sprSecondary = s.sprSecondary := rfl
@[simp] theorem State.setVideoEnable_videoEnable (s : State) (f : Bool) : (s.setVideoEnable f).videoEnable = f := rfl
@[simp] theorem State.setVideoEnable_flipScreen (s : State) (f : Bool) : (s.setVideoEnable f).flipScreen = s.flipScreen := rfl
@[simp] theorem State.setVideoEnable_fb (s : State) (f : Bool) : (s.setVideoEnable f).fb = s.fb := rfl
@[simp] theorem State.setVideoEnable_pending (s : State) (f : Bool) : (s.setVideoEnable f).pending = s.pending := rfl
@[simp] theorem State.setVideoEnable_responses (s : State) (f : Bool) : (s.setVideoEnable f).responses = s.responses := rfl
@[simp] theorem State.setVideoEnable_faultMark (s : State) (f : Bool) : (s.setVideoEnable f).faultMark = s.faultMark := rfl
@[simp] theorem State.setVideoEnable_scanDraws (s : State) (f : Bool) : (s.setVideoEnable f).scanDraws = s.scanDraws := rfl

/-! ## setFlipScreen -/

@[simp] theorem State.setFlipScreen_board (s : State) (f : Bool) : (s.setFlipScreen f).board = s.board := rfl
@[simp] theorem State.setFlipScreen_base (s : State) (f : Bool) : (s.setFlipScreen f).base = s.base := rfl
@[simp] theorem State.setFlipScreen_pen (s : State) (f : Bool) : (s.setFlipScreen f).pen = s.pen := rfl
@[simp] theorem State.setFlipScreen_penValid (s : State) (f : Bool) : (s.setFlipScreen f).penValid = s.penValid := rfl
@[simp] theorem State.setFlipScreen_tileCode (s : State) (f : Bool) : (s.setFlipScreen f).tileCode = s.tileCode := rfl
@[simp] theorem State.setFlipScreen_tileAttr (s : State) (f : Bool) : (s.setFlipScreen f).tileAttr = s.tileAttr := rfl
@[simp] theorem State.setFlipScreen_dirty (s : State) (f : Bool) : (s.setFlipScreen f).dirty = s.dirty := rfl
@[simp] theorem State.setFlipScreen_cache (s : State) (f : Bool) : (s.setFlipScreen f).cache = s.cache := rfl
@[simp] theorem State.setFlipScreen_sprPrimary (s : State) (f : Bool) : (s.setFlipScreen f).sprPrimary = s.sprPrimary := rfl
@[simp] theorem State.setFlipScreen_sprSecondary (s : State) (f : Bool) : (s.setFlipScreen f).sprSecondary = s.sprSecondary := rfl
@[simp] theorem State.setFlipScreen_videoEnable (s : State) (f : Bool) : (s.setFlipScreen f).videoEnable = s.videoEnable := rfl
@[simp] theorem State.setFlipScreen_flipScreen (s : State) (f : Bool) : (s.setFlipScreen f).flipScreen = f := rfl
@[simp] theorem State.setFlipScreen_fb (s : State) (f : Bool) : (s.setFlipScreen f).fb = s.fb := rfl
@[simp] theorem State.setFlipScreen_pending (s : State) (f : Bool) : (s.setFlipScreen f).pending = s.pending := rfl
@[simp] theorem State.setFlipScreen_responses (s : State) (f : Bool) : (s.setFlipScreen f).responses = s.responses := rfl
@[simp] theorem State.setFlipScreen_faultMark (s : State) (f : Bool) : (s.setFlipScreen f).faultMark = s.faultMark := rfl
@[simp] theorem State.setFlipScreen_scanDraws (s : State) (f : Bool) : (s.setFlipScreen f).scanDraws = s.scanDraws := rfl

/-! ## buildPalette -/

@[simp] theorem State.buildPalette_board (s : State) : (s.buildPalette).board = s.board := rfl
@[simp] theorem State.buildPalette_base (s : State) : (s.buildPalette).base = baseBank s.board := rfl
@[simp] theorem State.buildPalette_pen (s : State) : (s.buildPalette).pen = derivePalette s.board := rfl
@[simp] theorem State.buildPalette_penValid (s : State) : (s.buildPalette).penValid = true := rfl
@[simp] theorem State.buildPalette_tileCode (s : State) : (s.buildPalette).tileCode = s.tileCode := rfl
@[simp] theorem State.buildPalette_tileAttr (s : State) : (s.buildPalette).tileAttr = s.tileAttr := rfl
@[simp] theorem State.buildPalette_dirty (s : State) : (s.buildPalette).dirty = s.dirty := rfl
@[simp] theorem State.buildPalette_cache (s : State) : (s.buildPalette).cache = s.cache := rfl
@[simp] theorem State.buildPalette_sprPrimary (s : State) : (s.buildPalette).sprPrimary = s.sprPrimary := rfl
@[simp] theorem State.buildPalette_sprSecondary (s : State) : (s.buildPalette).sprSecondary = s.sprSecondary := rfl
@[simp] theorem State.buildPalette_videoEnable (s : State) : (s.buildPalette).videoEnable = s.videoEnable := rfl
@[simp] theorem State.buildPalette_flipScreen (s : State) : (s.buildPalette).flipScreen = s.flipScreen := rfl
@[simp] theorem State.buildPalette_fb (s : State) : (s.buildPalette).fb = s.fb := rfl
@[simp] theorem State.buildPalette_pending (s : State) : (s.buildPalette).pending = s.pending := rfl
@[simp] theorem State.buildPalette_responses (s : State) : (s.buildPalette).responses = s.responses := rfl
@[simp] theorem State.buildPalette_faultMark (s : State) : (s.buildPalette).faultMark = s.faultMark := rfl
@[simp] theorem State.buildPalette_scanDraws (s : State) : (s.buildPalette).scanDraws = s.scanDraws := rfl

/-! ## countScanline -/

@[simp] theorem State.countScanline_board (s : State) : (s.countScanline).board = s.board := rfl
@[simp] theorem State.countScanline_base (s : State) : (s.countScanline).base = s.base := rfl
@[simp] theorem State.countScanline_pen (s : State) : (s.countScanline).pen = s.pen := rfl
@[simp] theorem State.countScanline_penValid (s : State) : (s.countScanline).penValid = s.penValid := rfl
@[simp] theorem State.countScanline_tileCode (s : State) : (s.countScanline).tileCode = s.tileCode := rfl
@[simp] theorem State.countScanline_tileAttr (s : State) : (s.countScanline).tileAttr = s.tileAttr := rfl
@[simp] theorem State.countScanline_dirty (s : State) : (s.countScanline).dirty = s.dirty := rfl
@[simp] theorem State.countScanline_cache (s : State) : (s.countScanline).cache = s.cache := rfl
@[simp] theorem State.countScanline_sprPrimary (s : State) : (s.countScanline).sprPrimary = s.sprPrimary := rfl
@[simp] theorem State.countScanline_sprSecondary (s : State) : (s.countScanline).sprSecondary = s.sprSecondary := rfl
@[simp] theorem State.countScanline_videoEnable (s : State) : (s.countScanline).videoEnable = s.videoEnable := rfl
@[simp] theorem State.countScanline_flipScreen (s : State) : (s.countScanline).flipScreen = s.flipScreen := rfl
@[simp] theorem State.countScanline_fb (s : State) : (s.countScanline).fb = s.fb := rfl
@[simp] theorem State.countScanline_pending (s : State) : (s.countScanline).pending = s.pending := rfl
@[simp] theorem State.countScanline_responses (s : State) : (s.countScanline).responses = s.responses := rfl
@[simp] theorem State.countScanline_faultMark (s : State) : (s.countScanline).faultMark = s.faultMark := rfl
@[simp] theorem State.countScanline_scanDraws (s : State) : (s.countScanline).scanDraws = s.scanDraws + 1 := rfl

/-! ## blitTile -/

@[simp] theorem State.blitTile_board (s : State) (c : Clip) (t : Nat) (d : DecodedTile) : (s.blitTile c t d).board = s.board := rfl
@[simp] theorem State.blitTile_base (s : State) (c : Clip) (t : Nat) (d : DecodedTile) : (s.blitTile c t d).base = s.base := rfl
@[simp] theorem State.blitTile_pen (s : State) (c : Clip) (t : Nat) (d : DecodedTile) : (s.blitTile c t d).pen = s.pen := rfl
@[simp] theorem State.blitTile_penValid (s : State) (c : Clip) (t : Nat) (d : DecodedTile) : (s.blitTile c t d).penValid = s.penValid := rfl
@[simp] theorem State.blitTile_tileCode (s : State) (c : Clip) (t : Nat) (d : DecodedTile) : (s.blitTile c t d).tileCode = s.tileCode := rfl
@[simp] theorem State.blitTile_tileAttr (s : State) (c : Clip) (t : Nat) (d : DecodedTile) : (s.blitTile c t d).tileAttr = s.tileAttr := rfl
@[simp] theorem State.blitTile_dirty (s : State) (c : Clip) (t : Nat) (d : DecodedTile) : (s.blitTile c t d).dirty = s.dirty := rfl
@[simp] theorem State.blitTile_cache (s : State) (c : Clip) (t : Nat) (d : DecodedTile) : (s.blitTile c t d).cache = s.cache := rfl
@[simp] theorem State.blitTile_sprPrimary (s : State) (c : Clip) (t : Nat) (d : DecodedTile) : (s.blitTile c t d).sprPrimary = s.sprPrimary := rfl
@[simp] theorem State.blitTile_sprSecondary (s : State) (c : Clip) (t : Nat) (d : DecodedTile) : (s.blitTile c t d).sprSecondary = s.sprSecondary := rfl
@[simp] theorem State.blitTile_videoEnable (s : State) (c : Clip) (t : Nat) (d : DecodedTile) : (s.blitTile c t d).videoEnable = s.videoEnable := rfl
@[simp] theorem State.blitTile_flipScreen (s : State) (c : Clip) (t : Nat) (d : DecodedTile) : (s.blitTile c t d).flipScreen = s.flipScreen := rfl
@[simp] theorem State.blitTile_pending (s : State) (c : Clip) (t : Nat) (d : DecodedTile) : (s.blitTile c t d).pending = s.pending := rfl
@[simp] theorem State.blitTile_responses (s : State) (c : Clip) (t : Nat) (d : DecodedTile) : (s.blitTile c t d).responses = s.responses := rfl
@[simp] theorem State.blitTile_faultMark (s : State) (c : Clip) (t : Nat) (d : DecodedTile) : (s.blitTile c t d).faultMark = s.faultMark := rfl
@[simp] theorem State.blitTile_scanDraws (s : State) (c : Clip) (t : Nat) (d : DecodedTile) : (s.blitTile c t d).scanDraws = s.scanDraws := rfl

/-! ## blitSprite -/

@[simp] theorem State.blitSprite_board (c : Clip) (s : State) (o : Nat) : (State.blitSprite c s o).board = s.board := rfl
@[simp] theorem State.blitSprite_base (c : Clip) (s : State) (o : Nat) : (State.blitSprite c s o).base = s.base := rfl
@[simp] theorem State.blitSprite_pen (c : Clip) (s : State) (o : Nat) : (State.blitSprite c s o).pen = s.pen := rfl
@[simp] theorem State.blitSprite_penValid (c : Clip) (s : State) (o : Nat) : (State.blitSprite c s o).penValid = s.penValid := rfl
@[simp] theorem State.blitSprite_tileCode (c : Clip) (s : State) (o : Nat) : (State.blitSprite c s o).tileCode = s.tileCode := rfl
@[simp] theorem State.blitSprite_tileAttr (c : Clip) (s : State) (o : Nat) : (State.blitSprite c s o).tileAttr = s.tileAttr := rfl
@[simp] theorem State.blitSprite_dirty (c : Clip) (s : State) (o : Nat) : (State.blitSprite c s o).dirty = s.dirty := rfl
@[simp] theorem State.blitSprite_cache (c : Clip) (s : State) (o : Nat) : (State.blitSprite c s o).cache = s.cache := rfl
@[simp] theorem State.blitSprite_sprPrimary (c : Clip) (s : State) (o : Nat) : (State.blitSprite c s o).sprPrimary = s.sprPrimary := rfl
@[simp] theorem State.blitSprite_sprSecondary (c : Clip) (s : State) (o : Nat) : (State.blitSprite c s o).sprSecondary = s.sprSecondary := rfl
@[simp] theorem State.blitSprite_videoEnable (c : Clip) (s : State) (o : Nat) : (State.blitSprite c s o).videoEnable = s.videoEnable := rfl
@[simp] theorem State.blitSprite_flipScreen (c : Clip) (s : State) (o : Nat) : (State.blitSprite c s o).flipScreen = s.flipScreen := rfl
@[simp] theorem State.blitSprite_pending (c : Clip) (s : State) (o : Nat) : (State.blitSprite c s o).pending = s.pending := rfl
@[simp] theorem State.blitSprite_responses (c : Clip) (s : State) (o : Nat) : (State.blitSprite c s o).responses = s.responses := rfl
@[simp] theorem State.blitSprite_faultMark (c : Clip) (s : State) (o : Nat) : (State.blitSprite c s o).faultMark = s.faultMark := rfl
@[simp] theorem State.blitSprite_scanDraws (c : Clip) (s : State) (o : Nat) : (State.blitSprite c s o).scanDraws = s.scanDraws := rfl

/-! ## issue -/

@[simp] theorem State.issue_board (s : State) (w : CommandWord) : (s.issue w).board = s.board := rfl
@[simp] theorem State.issue_base (s : State) (w : CommandWord) : (s.issue w).base = s.base := rfl
@[simp] theorem State.issue_pen (s : State) (w : CommandWord) : (s.issue w).pen = s.pen := rfl
@[simp] theorem State.issue_penValid (s : State) (w : CommandWord) : (s.issue w).penValid = s.penValid := rfl
@[simp] theorem State.issue_tileCode (s : State) (w : CommandWord) : (s.issue w).tileCode = s.tileCode := rfl
@[simp] theorem State.issue_tileAttr (s : State) (w : CommandWord) : (s.issue w).tileAttr = s.tileAttr := rfl
@[simp] theorem State.issue_dirty (s : State) (w : CommandWord) : (s.issue w).dirty = s.dirty := rfl
@[simp] theorem State.issue_cache (s : State) (w : CommandWord) : (s.issue w).cache = s.cache := rfl
@[simp] theorem State.issue_sprPrimary (s : State) (w : CommandWord) : (s.issue w).sprPrimary = s.sprPrimary := rfl
@[simp] theorem State.issue_sprSecondary (s : State) (w : CommandWord) : (s.issue w).sprSecondary = s.sprSecondary := rfl
@[simp] theorem State.issue_videoEnable (s : State) (w : CommandWord) : (s.issue w).videoEnable = s.videoEnable := rfl
@[simp] theorem State.issue_flipScreen (s : State) (w : CommandWord) : (s.issue w).flipScreen = s.flipScreen := rfl
@[simp] theorem State.issue_fb (s : State) (w : CommandWord) : (s.issue w).fb = s.fb := rfl
@[simp] theorem State.issue_pending (s : State) (w : CommandWord) : (s.issue w).pending = s.pending ++ [w] := rfl
@[simp] theorem State.issue_responses (s : State) (w : CommandWord) : (s.issue w).responses = s.responses := rfl
@[simp] theorem State.issue_faultMark (s : State) (w : CommandWord) : (s.issue w).faultMark = s.faultMark := rfl
@[simp] theorem State.issue_scanDraws (s : State) (w : CommandWord) : (s.issue w).scanDraws = s.scanDraws := rfl

/-! ## placeCommand -/

@[simp] theorem State.placeCommand_board (s : State) (w : CommandWord) : (s.placeCommand w).board = s.board := rfl
@[simp] theorem State.placeCommand_base (s : State) (w : CommandWord) : (s.placeCommand w).base = s.base := rfl
@[simp] theorem State.placeCommand_pen (s : State) (w : CommandWord) : (s.placeCommand w).pen = s.pen := rfl
@[simp] theorem State.placeCommand_penValid (s : State) (w : CommandWord) : (s.placeCommand w).penValid = s.penValid := rfl
@[simp] theorem State.placeCommand_tileCode (s : State) (w : CommandWord) : (s.placeCommand w).tileCode = s.tileCode := rfl
@[simp] theorem State.placeCommand_tileAttr (s : State) (w : CommandWord) : (s.placeCommand w).tileAttr = s.tileAttr := rfl
@[simp] theorem State.placeCommand_dirty (s : State) (w : CommandWord) : (s.placeCommand w).dirty = s.dirty := rfl
@[simp] theorem State.placeCommand_cache (s : State) (w : CommandWord) : (s.placeCommand w).cache = s.cache := rfl
@[simp] theorem State.placeCommand_sprPrimary (s : State) (w : CommandWord) : (s.placeCommand w).sprPrimary = s.sprPrimary := rfl
@[simp] theorem State.placeCommand_sprSecondary (s : State) (w : CommandWord) : (s.placeCommand w).sprSecondary = s.sprSecondary := rfl
@[simp] theorem State.placeCommand_videoEnable (s : State) (w : CommandWord) : (s.placeCommand w).videoEnable = s.videoEnable := rfl
@[simp] theorem State.placeCommand_flipScreen (s : State) (w : CommandWord) : (s.placeCommand w).flipScreen = s.flipScreen := rfl
@[simp] theorem State.placeCommand_fb (s : State) (w : CommandWord) : (s.placeCommand w).fb = s.fb := rfl
@[simp] theorem State.placeCommand_pending (s : State) (w : CommandWord) : (s.placeCommand w).pending = w :: s.pending := rfl
@[simp] theorem State.placeCommand_responses (s : State) (w : CommandWord) : (s.placeCommand w).responses = s.responses := rfl
@[simp] theorem State.placeCommand_faultMark (s : State) (w : CommandWord) : (s.placeCommand w).faultMark = s.faultMark := rfl
@[simp] theorem State.placeCommand_scanDraws (s : State) (w : CommandWord) : (s.placeCommand w).scanDraws = s.scanDraws := rfl

/-! ## pokePixel -/

@[simp] theorem State.pokePixel_board (s : State) (x y : Byte) (p : Pen) : (s.pokePixel x y p).board = s.board := rfl
@[simp] theorem State.pokePixel_base (s : State) (x y : Byte) (p : Pen) : (s.pokePixel x y p).base = s.base := rfl
@[simp] theorem State.pokePixel_pen (s : State) (x y : Byte) (p : Pen) : (s.pokePixel x y p).pen = s.pen := rfl
@[simp] theorem State.pokePixel_penValid (s : State) (x y : Byte) (p : Pen) : (s.pokePixel x y p).penValid = s.penValid := rfl
@[simp] theorem State.pokePixel_tileCode (s : State) (x y : Byte) (p : Pen) : (s.pokePixel x y p).tileCode = s.tileCode := rfl
@[simp] theorem State.pokePixel_tileAttr (s : State) (x y : Byte) (p : Pen) : (s.pokePixel x y p).tileAttr = s.tileAttr := rfl
@[simp] theorem State.pokePixel_dirty (s : State) (x y : Byte) (p : Pen) : (s.pokePixel x y p).dirty = s.dirty := rfl
@[simp] theorem State.pokePixel_cache (s : State) (x y : Byte) (p : Pen) : (s.pokePixel x y p).cache = s.cache := rfl
@[simp] theorem State.pokePixel_sprPrimary (s : State) (x y : Byte) (p : Pen) : (s.pokePixel x y p).sprPrimary = s.sprPrimary := rfl
@[simp] theorem State.pokePixel_sprSecondary (s : State) (x y : Byte) (p : Pen) : (s.pokePixel x y p).sprSecondary = s.sprSecondary := rfl
@[simp] theorem State.pokePixel_videoEnable (s : State) (x y : Byte) (p : Pen) : (s.pokePixel x y p).videoEnable = s.videoEnable := rfl
@[simp] theorem State.pokePixel_flipScreen (s : State) (x y : Byte) (p : Pen) : (s.pokePixel x y p).flipScreen = s.flipScreen := rfl
@[simp] theorem State.pokePixel_fb (s : State) (x y : Byte) (p : Pen) : (s.pokePixel x y p).fb = writePixel s.fb x.toNat y.toNat p := rfl
@[simp] theorem State.pokePixel_pending (s : State) (x y : Byte) (p : Pen) : (s.pokePixel x y p).pending = s.pending := rfl
@[simp] theorem State.pokePixel_responses (s : State) (x y : Byte) (p : Pen) : (s.pokePixel x y p).responses = s.responses := rfl
@[simp] theorem State.pokePixel_faultMark (s : State) (x y : Byte) (p : Pen) : (s.pokePixel x y p).faultMark = s.faultMark := rfl
@[simp] theorem State.pokePixel_scanDraws (s : State) (x y : Byte) (p : Pen) : (s.pokePixel x y p).scanDraws = s.scanDraws := rfl

/-! ## reloadProms -/

@[simp] theorem State.reloadProms_board (s : State) (cp lk : Blob) : (s.reloadProms cp lk).board = { s.board with colorProm := cp, lookup := lk } := rfl
@[simp] theorem State.reloadProms_base (s : State) (cp lk : Blob) : (s.reloadProms cp lk).base = s.base := rfl
@[simp] theorem State.reloadProms_pen (s : State) (cp lk : Blob) : (s.reloadProms cp lk).pen = s.pen := rfl
@[simp] theorem State.reloadProms_penValid (s : State) (cp lk : Blob) : (s.reloadProms cp lk).penValid = s.penValid := rfl
@[simp] theorem State.reloadProms_tileCode (s : State) (cp lk : Blob) : (s.reloadProms cp lk).tileCode = s.tileCode := rfl
@[simp] theorem State.reloadProms_tileAttr (s : State) (cp lk : Blob) : (s.reloadProms cp lk).tileAttr = s.tileAttr := rfl
@[simp] theorem State.reloadProms_dirty (s : State) (cp lk : Blob) : (s.reloadProms cp lk).dirty = s.dirty := rfl
@[simp] theorem State.reloadProms_cache (s : State) (cp lk : Blob) : (s.reloadProms cp lk).cache = s.cache := rfl
@[simp] theorem State.reloadProms_sprPrimary (s : State) (cp lk : Blob) : (s.reloadProms cp lk).sprPrimary = s.sprPrimary := rfl
@[simp] theorem State.reloadProms_sprSecondary (s : State) (cp lk : Blob) : (s.reloadProms cp lk).sprSecondary = s.sprSecondary := rfl
@[simp] theorem State.reloadProms_videoEnable (s : State) (cp lk : Blob) : (s.reloadProms cp lk).videoEnable = s.videoEnable := rfl
@[simp] theorem State.reloadProms_flipScreen (s : State) (cp lk : Blob) : (s.reloadProms cp lk).flipScreen = s.flipScreen := rfl
@[simp] theorem State.reloadProms_fb (s : State) (cp lk : Blob) : (s.reloadProms cp lk).fb = s.fb := rfl
@[simp] theorem State.reloadProms_pending (s : State) (cp lk : Blob) : (s.reloadProms cp lk).pending = s.pending := rfl
@[simp] theorem State.reloadProms_responses (s : State) (cp lk : Blob) : (s.reloadProms cp lk).responses = s.responses := rfl
@[simp] theorem State.reloadProms_faultMark (s : State) (cp lk : Blob) : (s.reloadProms cp lk).faultMark = s.faultMark := rfl
@[simp] theorem State.reloadProms_scanDraws (s : State) (cp lk : Blob) : (s.reloadProms cp lk).scanDraws = s.scanDraws := rfl

end Sys2Proof.Machine
end

