-- ==== Sys2Proof/Laws/Store.lean ====
section
/-!
SUPPORT. The laws of stores: read after write, writes elsewhere, the canonical form is kept, and two canonical stores that
read alike are equal.
-/

namespace Sys2Proof.Machine

variable {α : Type}

@[simp] theorem Store.find?_nil (k : Nat) : Store.find? ([] : Store α) k = none := rfl

@[simp] theorem Store.read_nil (d : α) (k : Nat) : Store.read d [] k = d := rfl

theorem Store.find?_erase (m : Store α) (k a : Nat) :
    Store.find? (Store.erase m k) a = if a = k then none else Store.find? m a := by
  induction m with
  | nil => simp [Store.erase]
  | cons e m ih =>
    obtain ⟨k', v⟩ := e
    by_cases hk : k = k'
    · subst hk
      by_cases ha : a = k
      · rw [Store.erase, if_pos rfl, ih, if_pos ha, if_pos ha]
      · simp [Store.erase, Store.find?, ih, ha]
    · by_cases ha : a = k'
      · subst ha
        simp [Store.erase, Store.find?, hk, Ne.symm hk]
      · simp [Store.erase, Store.find?, hk, ha, ih]

theorem Store.find?_insert (m : Store α) (k : Nat) (v : α) (a : Nat) :
    Store.find? (Store.insert m k v) a = if a = k then some v else Store.find? m a := by
  induction m with
  | nil => simp [Store.insert, Store.find?]
  | cons e m ih =>
    obtain ⟨k', v'⟩ := e
    simp only [Store.insert]
    split
    · simp [Store.find?]
    · split
      · rename_i h
        subst h
        by_cases ha : a = k <;> simp [Store.find?, ha]
      · rename_i h
        by_cases ha : a = k'
        · subst ha
          simp [Store.find?, Ne.symm h]
        · simp [Store.find?, ha, ih]

/-- A read after a write: the value written at its index, the old value everywhere else. -/
theorem Store.read_write [DecidableEq α] (d : α) (m : Store α) (k : Nat) (v : α) (a : Nat) :
    Store.read d (Store.write d m k v) a = if a = k then v else Store.read d m a := by
  by_cases hv : v = d
  · by_cases ha : a = k <;> simp [Store.write, Store.read, Store.find?_erase, hv, ha]
  · by_cases ha : a = k <;> simp [Store.write, Store.read, Store.find?_insert, hv, ha]

@[simp] theorem Store.read_write_same [DecidableEq α] (d : α) (m : Store α) (k : Nat) (v : α) :
    Store.read d (Store.write d m k v) k = v := by simp [Store.read_write]

theorem Store.read_write_other [DecidableEq α] (d : α) (m : Store α) {k a : Nat} (v : α) (h : a ≠ k) :
    Store.read d (Store.write d m k v) a = Store.read d m a := by simp [Store.read_write, h]

/-! ## The canonical form -/

theorem Store.wfFrom_mono [DecidableEq α] {d : α} {n lo lo' : Nat} {m : Store α} (hlo : lo' ≤ lo)
    (h : Store.wfFrom d n lo m = true) : Store.wfFrom d n lo' m = true := by
  cases m with
  | nil => rfl
  | cons e m =>
    obtain ⟨k, v⟩ := e
    simp only [Store.wfFrom, Bool.and_eq_true, decide_eq_true_eq] at h ⊢
    exact ⟨⟨⟨by omega, h.1.1.2⟩, h.1.2⟩, h.2⟩

theorem Store.wfFrom_erase [DecidableEq α] {d : α} {n : Nat} {m : Store α} (k : Nat) :
    ∀ {lo : Nat}, Store.wfFrom d n lo m = true → Store.wfFrom d n lo (Store.erase m k) = true := by
  induction m with
  | nil => intro lo _; rfl
  | cons e m ih =>
    obtain ⟨k', v⟩ := e
    intro lo h
    simp only [Store.wfFrom, Bool.and_eq_true, decide_eq_true_eq] at h
    simp only [Store.erase]
    split
    · exact Store.wfFrom_mono (by omega) (ih h.2)
    · simp only [Store.wfFrom, Bool.and_eq_true, decide_eq_true_eq]
      exact ⟨h.1, ih h.2⟩

theorem Store.wfFrom_insert [DecidableEq α] {d : α} {n : Nat} {m : Store α} {k : Nat} {v : α} (hk : k < n)
    (hv : v ≠ d) :
    ∀ {lo : Nat}, lo ≤ k → Store.wfFrom d n lo m = true → Store.wfFrom d n lo (Store.insert m k v) = true := by
  induction m with
  | nil =>
    intro lo hlo _
    simp [Store.insert, Store.wfFrom, hlo, hk, hv]
  | cons e m ih =>
    obtain ⟨k', v'⟩ := e
    intro lo hlo h
    simp only [Store.wfFrom, Bool.and_eq_true, decide_eq_true_eq] at h
    simp only [Store.insert]
    split
    · rename_i hlt
      simp only [Store.wfFrom, Bool.and_eq_true, decide_eq_true_eq]
      exact ⟨⟨⟨hlo, hk⟩, hv⟩, ⟨⟨by omega, h.1.1.2⟩, h.1.2⟩, h.2⟩
    · split
      · rename_i heq
        subst heq
        simp only [Store.wfFrom, Bool.and_eq_true, decide_eq_true_eq]
        exact ⟨⟨⟨hlo, hk⟩, hv⟩, h.2⟩
      · simp only [Store.wfFrom, Bool.and_eq_true, decide_eq_true_eq]
        exact ⟨h.1, ih (by omega) h.2⟩

/-- A write inside the space keeps the canonical form. -/
theorem Store.wf_write [DecidableEq α] {d : α} {n : Nat} {m : Store α} {k : Nat} (v : α) (hk : k < n)
    (h : Store.wf d n m = true) : Store.wf d n (Store.write d m k v) = true := by
  unfold Store.write
  split
  · exact Store.wfFrom_erase k h
  · rename_i hv
    exact Store.wfFrom_insert hk hv (Nat.zero_le k) h

@[simp] theorem Store.wf_nil [DecidableEq α] (d : α) (n : Nat) : Store.wf d n [] = true := rfl

theorem Store.find?_none_of_wfFrom [DecidableEq α] {d : α} {n : Nat} {m : Store α} {a : Nat} :
    ∀ {lo : Nat}, a < lo → Store.wfFrom d n lo m = true → Store.find? m a = none := by
  induction m with
  | nil => intros; rfl
  | cons e m ih =>
    obtain ⟨k, v⟩ := e
    intro lo hlo h
    simp only [Store.wfFrom, Bool.and_eq_true, decide_eq_true_eq] at h
    have : a ≠ k := by omega
    simp [Store.find?, this, ih (show a < k + 1 by omega) h.2]

/-- Two canonical stores that read alike everywhere are the same list: equal memories are equal data. -/
theorem Store.eq_of_read_eq [DecidableEq α] {d : α} {n : Nat} {m : Store α} :
    ∀ {lo : Nat} {m' : Store α}, Store.wfFrom d n lo m = true → Store.wfFrom d n lo m' = true →
      (∀ a, Store.read d m a = Store.read d m' a) → m = m' := by
  induction m with
  | nil =>
    intro lo m' _ h' hr
    cases m' with
    | nil => rfl
    | cons e m' =>
      obtain ⟨k, v⟩ := e
      simp only [Store.wfFrom, Bool.and_eq_true, decide_eq_true_eq] at h'
      have := hr k
      simp [Store.read, Store.find?] at this
      exact absurd this.symm h'.1.2
  | cons e m ih =>
    obtain ⟨k, v⟩ := e
    intro lo m' h h' hr
    simp only [Store.wfFrom, Bool.and_eq_true, decide_eq_true_eq] at h
    cases m' with
    | nil =>
      have := hr k
      simp [Store.read, Store.find?] at this
      exact absurd this h.1.2
    | cons e' m' =>
      obtain ⟨k', v'⟩ := e'
      simp only [Store.wfFrom, Bool.and_eq_true, decide_eq_true_eq] at h'
      have hkk : k = k' := by
        rcases Nat.lt_trichotomy k k' with hlt | heq | hgt
        · have hk := hr k
          have hn := Store.find?_none_of_wfFrom (show k < k' + 1 by omega) h'.2
          simp [Store.read, Store.find?, show k ≠ k' by omega, hn] at hk
          exact absurd hk h.1.2
        · exact heq
        · have hk := hr k'
          have hn := Store.find?_none_of_wfFrom (show k' < k + 1 by omega) h.2
          simp [Store.read, Store.find?, show k' ≠ k by omega, hn] at hk
          exact absurd hk.symm h'.1.2
      subst hkk
      have hv : v = v' := by
        have := hr k
        simpa [Store.read, Store.find?] using this
      subst hv
      congr 1
      refine ih h.2 h'.2 (fun a => ?_)
      by_cases ha : a = k
      · subst ha
        simp [Store.read, Store.find?_none_of_wfFrom (Nat.lt_succ_self _) h.2,
          Store.find?_none_of_wfFrom (Nat.lt_succ_self _) h'.2]
      · have := hr a
        simpa [Store.read, Store.find?, ha] using this

/-! ## What a store lists -/

theorem Store.mem_insert {m : Store α} {k : Nat} {v : α} {e : Nat × α} (h : e ∈ Store.insert m k v) :
    e = (k, v) ∨ e ∈ m := by
  induction m with
  | nil => simpa [Store.insert] using h
  | cons f m ih =>
    obtain ⟨k', v'⟩ := f
    simp only [Store.insert] at h
    split at h
    · simpa using h
    · split at h
      · simp only [List.mem_cons] at h ⊢
        exact h.imp_right .inr
      · simp only [List.mem_cons] at h ⊢
        rcases h with h | h
        · exact .inr (.inl h)
        · exact (ih h).imp_right .inr

theorem Store.mem_erase {m : Store α} {k : Nat} {e : Nat × α} (h : e ∈ Store.erase m k) : e ∈ m := by
  induction m with
  | nil => exact h
  | cons f m ih =>
    obtain ⟨k', v'⟩ := f
    simp only [Store.erase] at h
    split at h
    · exact List.mem_cons_of_mem _ (ih h)
    · simp only [List.mem_cons] at h ⊢
      exact h.imp_right ih

theorem Store.mem_write [DecidableEq α] {d : α} {m : Store α} {k : Nat} {v : α} {e : Nat × α}
    (h : e ∈ Store.write d m k v) : e = (k, v) ∨ e ∈ m := by
  unfold Store.write at h
  split at h
  · exact .inr (Store.mem_erase h)
  · exact Store.mem_insert h

theorem Store.mem_of_find? {m : Store α} {k : Nat} {v : α} (h : Store.find? m k = some v) : (k, v) ∈ m := by
  induction m with
  | nil => simp at h
  | cons f m ih =>
    obtain ⟨k', v'⟩ := f
    simp only [Store.find?] at h
    split at h
    · rename_i hk
      simp_all
    · exact List.mem_cons_of_mem _ (ih h)

theorem Store.lt_of_mem_wfFrom [DecidableEq α] {d : α} {n : Nat} {m : Store α} {e : Nat × α} :
    ∀ {lo : Nat}, Store.wfFrom d n lo m = true → e ∈ m → e.1 < n := by
  induction m with
  | nil => intro lo _ h; simp at h
  | cons f m ih =>
    obtain ⟨k, v⟩ := f
    intro lo h he
    simp only [Store.wfFrom, Bool.and_eq_true, decide_eq_true_eq] at h
    rcases List.mem_cons.mp he with rfl | he
    · exact h.1.1.2
    · exact ih h.2 he

/-- Outside its space a canonical store lists nothing. -/
theorem Store.read_outside [DecidableEq α] {d : α} {n : Nat} {m : Store α} {a : Nat} (h : Store.wf d n m = true)
    (ha : n ≤ a) : Store.read d m a = d := by
  unfold Store.read
  cases hf : Store.find? m a with
  | none => rfl
  | some v => exact absurd (Store.lt_of_mem_wfFrom h (Store.mem_of_find? hf)) (by simpa using ha)

end Sys2Proof.Machine
end

