-- ==== Sys2Proof/Laws/Blit.lean ====
section
/-!
SUPPORT. What a blit does to a buffer, pixel by pixel, and that it keeps the buffer's canonical form.
-/

namespace Sys2Proof.Machine

theorem inClip_eq_true (c : Clip) (x y : Int) :
    inClip c x y = true ↔
      ((c.minX.toNat : Int) ≤ x ∧ x ≤ c.maxX.toNat) ∧ ((c.minY.toNat : Int) ≤ y ∧ y ≤ c.maxY.toNat) := by
  simp [inClip]

/-- A position inside a clip is a position of FB. -/
theorem inClip_bounds {c : Clip} {x y : Int} (h : inClip c x y = true) : 0 ≤ x ∧ x < 256 ∧ 0 ≤ y ∧ y < 256 := by
  rw [inClip_eq_true] at h
  have := c.maxX.isLt
  have := c.maxY.isLt
  omega

/-- A row after a pixel is written. -/
theorem bufferRow_writePixel (fb : Buffer) (x y : Nat) (v : Pen) (Y : Nat) :
    bufferRow (writePixel fb x y v) Y =
      if Y = y then Store.write unwrittenPixel (bufferRow fb y) x v else bufferRow fb Y := by
  simp only [bufferRow, writePixel, Store.read_write]

/-- A pixel after a write: the pen written at its place, the old one everywhere else. -/
theorem readPixel_writePixel (fb : Buffer) (x y : Nat) (v : Pen) (X Y : Nat) :
    readPixel (writePixel fb x y v) X Y = if X = x ∧ Y = y then v else readPixel fb X Y := by
  simp only [readPixel, bufferRow_writePixel]
  by_cases hY : Y = y
  · subst hY
    simp [Store.read_write]
  · simp [hY]

/-- A canonical buffer has a canonical list of rows, and each row, listed or not, is canonical. -/
theorem Buffer.wf_iff {fb : Buffer} :
    Buffer.wf fb = true ↔ Store.wf [] 256 fb = true ∧ ∀ e ∈ fb, Store.wf unwrittenPixel 256 e.2 = true := by
  simp [Buffer.wf]

theorem wf_bufferRow {fb : Buffer} (h : Buffer.wf fb = true) (y : Nat) :
    Store.wf unwrittenPixel 256 (bufferRow fb y) = true := by
  rw [Buffer.wf_iff] at h
  unfold bufferRow Store.read
  cases hf : Store.find? fb y with
  | none => rfl
  | some r => exact h.2 _ (Store.mem_of_find? hf)

/-- Writing a pixel of the buffer keeps its canonical form. -/
theorem wf_writePixel {fb : Buffer} {x y : Nat} (v : Pen) (hx : x < 256) (hy : y < 256) (h : Buffer.wf fb = true) :
    Buffer.wf (writePixel fb x y v) = true := by
  have hrow := Store.wf_write v hx (wf_bufferRow h y)
  rw [Buffer.wf_iff] at h ⊢
  refine ⟨Store.wf_write _ hy h.1, fun e he => ?_⟩
  rcases Store.mem_write he with rfl | he
  · exact hrow
  · exact h.2 e he

/-- Two canonical buffers that read alike are the same list. -/
theorem Buffer.eq_of_readPixel_eq {fb fb' : Buffer} (h : Buffer.wf fb = true) (h' : Buffer.wf fb' = true)
    (hr : ∀ X Y, readPixel fb X Y = readPixel fb' X Y) : fb = fb' :=
  Store.eq_of_read_eq (Buffer.wf_iff.mp h).1 (Buffer.wf_iff.mp h').1
    (fun Y => Store.eq_of_read_eq (wf_bufferRow h Y) (wf_bufferRow h' Y) (fun X => hr X Y))

/-- Outside the 256 × 256 pixels a canonical buffer lists nothing. -/
theorem readPixel_outside {fb : Buffer} (h : Buffer.wf fb = true) {X Y : Nat} (hXY : 256 ≤ X ∨ 256 ≤ Y) :
    readPixel fb X Y = unwrittenPixel := by
  rcases hXY with hX | hY
  · exact Store.read_outside (wf_bufferRow h Y) hX
  · rw [readPixel, bufferRow, Store.read_outside (Buffer.wf_iff.mp h).1 hY]
    rfl

theorem readPixel_plot {c : Clip} {x y : Int} {p : Option Pen} {fb : Buffer} {X Y : Nat} :
    readPixel (plot c x y p fb) X Y =
      if insideClip c X Y = true ∧ x = X ∧ y = Y then p.getD (readPixel fb X Y) else readPixel fb X Y := by
  unfold plot
  by_cases hc : inClip c x y = true
  · have hb := inClip_bounds hc
    rw [if_pos hc]
    cases p with
    | none => simp
    | some v =>
      rw [readPixel_writePixel, Option.getD_some]
      by_cases he : x = X ∧ y = Y
      · obtain ⟨rfl, rfl⟩ := he
        have hin : insideClip c X Y = true := hc
        simp [hin]
      · have : ¬(X = x.toNat ∧ Y = y.toNat) := by omega
        rw [if_neg this, if_neg (fun h => he h.2)]
  · rw [if_neg hc, if_neg]
    rintro ⟨h, rfl, rfl⟩
    exact hc h

theorem mem_blockCells {w h : Nat} {p : Nat × Nat} : p ∈ blockCells w h ↔ p.1 < w ∧ p.2 < h := by
  obtain ⟨a, b⟩ := p
  simp only [blockCells, List.mem_flatMap, List.mem_range, List.mem_map, Prod.mk.injEq]
  constructor
  · rintro ⟨dy, hdy, dx, hdx, rfl, rfl⟩
    exact ⟨hdx, hdy⟩
  · rintro ⟨ha, hb⟩
    exact ⟨b, hb, a, ha, rfl, rfl⟩

theorem readPixel_foldl_plot {c : Clip} {x y : Int} {paint : Nat → Nat → Option Pen} {X Y : Nat}
    (cells : List (Nat × Nat)) :
    ∀ fb : Buffer,
      readPixel (cells.foldl (fun fb p => plot c (x + p.1) (y + p.2) (paint p.1 p.2) fb) fb) X Y =
        if insideClip c X Y = true ∧ ∃ p ∈ cells, x + p.1 = X ∧ y + p.2 = Y then
          (paint (X - x).toNat (Y - y).toNat).getD (readPixel fb X Y)
        else readPixel fb X Y := by
  induction cells with
  | nil => intro fb; simp
  | cons p cells ih =>
    intro fb
    rw [List.foldl_cons, ih, readPixel_plot]
    by_cases hc : insideClip c X Y = true
    · by_cases hp : x + p.1 = X ∧ y + p.2 = Y
      · have h1 : (X - x).toNat = p.1 := by omega
        have h2 : (Y - y).toNat = p.2 := by omega
        have hex : ∃ q ∈ p :: cells, x + q.1 = X ∧ y + q.2 = Y := ⟨p, List.mem_cons_self, hp⟩
        rw [if_pos (show insideClip c X Y = true ∧ _ from ⟨hc, hp⟩), if_pos (show _ ∧ _ from ⟨hc, hex⟩), h1, h2]
        split
        · cases paint p.1 p.2 <;> rfl
        · rfl
      · rw [if_neg (show ¬(insideClip c X Y = true ∧ _) from fun h => hp h.2)]
        have : (∃ q ∈ p :: cells, x + q.1 = X ∧ y + q.2 = Y) ↔ ∃ q ∈ cells, x + q.1 = X ∧ y + q.2 = Y := by
          simp only [List.mem_cons, exists_eq_or_imp]
          exact or_iff_right hp
        simp only [this]
    · simp [hc]

/-- What a blit does, pixel by pixel: inside the clip and the block, the pen painted there, if any; elsewhere nothing. -/
theorem readPixel_blit {c : Clip} {x y : Int} {w h : Nat} {paint : Nat → Nat → Option Pen} {fb : Buffer} {X Y : Nat} :
    readPixel (blit c x y w h paint fb) X Y =
      if insideClip c X Y = true ∧ x ≤ X ∧ X - x < w ∧ y ≤ Y ∧ Y - y < h then
        (paint (X - x).toNat (Y - y).toNat).getD (readPixel fb X Y)
      else readPixel fb X Y := by
  rw [blit, readPixel_foldl_plot]
  congr 1
  simp only [mem_blockCells, eq_iff_iff]
  refine and_congr_right fun _ => ⟨?_, ?_⟩
  · rintro ⟨p, hp, h1, h2⟩
    omega
  · rintro ⟨h1, h2, h3, h4⟩
    exact ⟨((X - x).toNat, (Y - y).toNat), ⟨by dsimp; omega, by dsimp; omega⟩, by dsimp; omega, by dsimp; omega⟩

theorem wf_plot {c : Clip} {x y : Int} {p : Option Pen} {fb : Buffer}
    (h : Buffer.wf fb = true) : Buffer.wf (plot c x y p fb) = true := by
  unfold plot
  split
  · rename_i hc
    have hb := inClip_bounds hc
    cases p with
    | none => exact h
    | some v => exact wf_writePixel v (by omega) (by omega) h
  · exact h

/-- A blit keeps the canonical form of the buffer. -/
theorem wf_blit {c : Clip} {x y : Int} {w h : Nat} {paint : Nat → Nat → Option Pen} {fb : Buffer}
    (hfb : Buffer.wf fb = true) :
    Buffer.wf (blit c x y w h paint fb) = true := by
  unfold blit
  generalize blockCells w h = cells
  induction cells generalizing fb with
  | nil => exact hfb
  | cons p cells ih => exact ih (wf_plot hfb)

end Sys2Proof.Machine
end

