-- ==== Sys2Proof/Laws/Draw.lean ====
section
/-!
SUPPORT. What the two draws do: the sprite draw and the tilemap draw, their frames, their pixels, the dirty bits and the
cache.
-/

namespace Sys2Proof.Machine

/-! ## The sprite draw -/

@[simp] theorem spriteShows_blitSprite (c : Clip) (s : State) (o o' x y : Nat) :
    (State.blitSprite c s o).spriteShows o' x y = s.spriteShows o' x y := rfl

theorem pixel_blitSprite {c : Clip} {s : State} {o X Y : Nat} :
    (State.blitSprite c s o).pixel X Y =
      if insideClip c X Y = true then (s.spriteShows o X Y).getD (s.pixel X Y) else s.pixel X Y := by
  simp only [State.pixel, State.blitSprite, readPixel_blit]
  by_cases hc : insideClip c X Y = true
  · have hx : ((X : Int) - ((s.spriteAt o).x : Int)).toNat = X - (s.spriteAt o).x := by omega
    simp only [hc, true_and, if_true, State.spriteShows, hx]
    by_cases hin : (s.spriteAt o).x ≤ X ∧ X - (s.spriteAt o).x < s.board.spriteW ∧
        (s.spriteAt o).y ≤ (Y : Int) ∧ (Y : Int) - (s.spriteAt o).y < s.board.spriteH
    · have hin' : ((s.spriteAt o).x : Int) ≤ X ∧ (X : Int) - (s.spriteAt o).x < s.board.spriteW ∧
          (s.spriteAt o).y ≤ (Y : Int) ∧ (Y : Int) - (s.spriteAt o).y < s.board.spriteH := by omega
      rw [if_pos hin, if_pos hin']
    · have hin' : ¬(((s.spriteAt o).x : Int) ≤ X ∧ (X : Int) - (s.spriteAt o).x < s.board.spriteW ∧
          (s.spriteAt o).y ≤ (Y : Int) ∧ (Y : Int) - (s.spriteAt o).y < s.board.spriteH) := by omega
      rw [if_neg hin, if_neg hin']
      rfl
  · simp [hc]

theorem foldl_blitSprite_eq (c : Clip) (slots : List Nat) (s : State) :
    slots.foldl (State.blitSprite c) s = { s with fb := (slots.foldl (State.blitSprite c) s).fb } := by
  induction slots generalizing s with
  | nil => rfl
  | cons o slots ih =>
    rw [List.foldl_cons, ih]
    rfl

/-- SPD's draw changes nothing but FB (43_sprites.md R162). -/
theorem drawSprites_eq (c : Clip) (s : State) : drawSprites c s = { s with fb := (drawSprites c s).fb } :=
  foldl_blitSprite_eq c spriteSlots s

theorem pixel_foldl_blitSprite {c : Clip} {X Y : Nat} (slots : List Nat) (s : State) :
    (slots.foldl (State.blitSprite c) s).pixel X Y =
      if insideClip c X Y = true then
        (slots.reverse.findSome? (fun o => s.spriteShows o X Y)).getD (s.pixel X Y)
      else s.pixel X Y := by
  induction slots generalizing s with
  | nil => simp
  | cons o slots ih =>
    rw [List.foldl_cons, ih, pixel_blitSprite]
    by_cases hc : insideClip c X Y = true
    · simp only [hc, if_true, spriteShows_blitSprite, List.reverse_cons, List.findSome?_append]
      cases slots.reverse.findSome? (fun o => s.spriteShows o X Y) with
      | some p => simp
      | none => cases h : s.spriteShows o X Y <;> simp [List.findSome?, h]
    · simp [hc]

theorem spriteSlots_reverse : spriteSlots.reverse = slotsRising := by decide

/-- The pixels of SPD's draw: the lowest slot that shows one wins (43_sprites.md R167). -/
theorem pixel_drawSprites {c : Clip} {s : State} {X Y : Nat} :
    (drawSprites c s).pixel X Y =
      if insideClip c X Y = true then (s.topSprite X Y).getD (s.pixel X Y) else s.pixel X Y := by
  rw [drawSprites, pixel_foldl_blitSprite, spriteSlots_reverse]
  rfl

theorem wf_foldl_blitSprite {c : Clip} (slots : List Nat) {s : State}
    (h : Buffer.wf s.fb = true) :
    Buffer.wf (slots.foldl (State.blitSprite c) s).fb = true := by
  induction slots generalizing s with
  | nil => exact h
  | cons o slots ih => exact ih (wf_blit h)

theorem wf_drawSprites {c : Clip} {s : State} (h : Buffer.wf s.fb = true) :
    Buffer.wf (drawSprites c s).fb = true := wf_foldl_blitSprite spriteSlots h

/-! ## Refreshing a tile -/

theorem refresh_eq (s : State) (t : Nat) :
    s.refresh t = { s with dirty := (s.refresh t).dirty, cache := (s.refresh t).cache } := by
  unfold State.refresh
  split <;> rfl

theorem isDirty_refresh (s : State) (t a : Nat) :
    (s.refresh t).isDirty a = if a = t then false else s.isDirty a := by
  unfold State.refresh
  split
  · simp only [State.isDirty, State.markClean_dirty, State.writeCache_dirty, Store.read_write]
  · rename_i h
    by_cases ha : a = t
    · subst ha
      simpa using h
    · simp [ha]

theorem cachedTile_refresh (s : State) (t a : Nat) :
    (s.refresh t).cachedTile a = if a = t ∧ s.isDirty t = true then s.tileAt t else s.cachedTile a := by
  unfold State.refresh
  by_cases h : s.isDirty t = true
  · simp only [h, if_true, and_true, State.cachedTile, State.markClean_cache, State.writeCache_cache, Store.read_write]
  · simp [h]

/-- Refresh returns the decode of the bytes now in memory (42_tilemap.md R146). -/
theorem cachedTile_refresh_self {s : State} {t : Nat} (hs : s.CacheCoherent) (ht : t < 1024) :
    (s.refresh t).cachedTile t = s.tileAt t := by
  rw [cachedTile_refresh]
  split
  · rfl
  · rename_i h
    exact hs t ht (by simpa using h)

theorem tileAt_refresh (s : State) (t a : Nat) : (s.refresh t).tileAt a = s.tileAt a := by
  rw [refresh_eq]
  rfl

theorem refresh_coherent {s : State} {t : Nat} (hs : s.CacheCoherent) : (s.refresh t).CacheCoherent := by
  intro a ha hd
  rw [isDirty_refresh] at hd
  rw [tileAt_refresh, cachedTile_refresh]
  by_cases hat : a = t
  · subst hat
    split
    · rfl
    · rename_i h
      exact hs a ha (by simpa using h)
  · rw [if_neg hat] at hd
    rw [if_neg (fun h => hat h.1)]
    exact hs a ha hd

/-! ## The draw of one tile -/

theorem drawTile_eq (cat : Category) (c : Clip) (s : State) (t : Nat) :
    drawTile cat c s t =
      { s with dirty := (s.refresh t).dirty, cache := (s.refresh t).cache, fb := (drawTile cat c s t).fb } := by
  unfold drawTile
  split
  · unfold State.refresh
    split <;> rfl
  · unfold State.refresh
    split <;> rfl

theorem drawTile_coherent {cat : Category} {c : Clip} {s : State} {t : Nat} (hs : s.CacheCoherent) :
    (drawTile cat c s t).CacheCoherent := by
  have h := refresh_coherent (t := t) hs
  unfold drawTile
  split
  · exact h
  · exact h

theorem isDirty_drawTile (cat : Category) (c : Clip) (s : State) (t a : Nat) :
    (drawTile cat c s t).isDirty a = if a = t then false else s.isDirty a := by
  rw [drawTile_eq, ← isDirty_refresh]
  rfl

theorem tileAt_drawTile (cat : Category) (c : Clip) (s : State) (t a : Nat) :
    (drawTile cat c s t).tileAt a = s.tileAt a := by
  rw [drawTile_eq]
  rfl

theorem background_drawTile (cat : Category) (c : Clip) (s : State) (t x y : Nat) :
    (drawTile cat c s t).background x y = s.background x y := by
  rw [drawTile_eq]
  rfl

theorem pixel_drawTile {cat : Category} {c : Clip} {s : State} {t X Y : Nat} (hs : s.CacheCoherent) (ht : t < 1024)
    (hX : X < 256) :
    (drawTile cat c s t).pixel X Y =
      if insideClip c X Y = true ∧ tileCovering X Y = t ∧ (s.tileAt t).priorityCategory = cat then s.background X Y
      else s.pixel X Y := by
  have hb : (s.refresh t).board = s.board := by rw [refresh_eq]
  have hp : (s.refresh t).pixel X Y = s.pixel X Y := by
    rw [refresh_eq]
    rfl
  have hcov : (((8 * tileCol t : Nat) : Int) ≤ X ∧ (X : Int) - ((8 * tileCol t : Nat) : Int) < (8 : Nat) ∧
      ((8 * tileRow t : Nat) : Int) ≤ Y ∧ (Y : Int) - ((8 * tileRow t : Nat) : Int) < (8 : Nat)) ↔
      tileCovering X Y = t := by
    unfold tileCol tileRow tileCovering
    omega
  unfold drawTile
  rw [cachedTile_refresh_self hs ht]
  by_cases hcat : (s.tileAt t).priorityCategory = cat
  · rw [if_pos hcat]
    simp only [State.pixel, State.blitTile]
    rw [readPixel_blit, hb]
    simp only [hcov]
    change (if _ then _ else (s.refresh t).pixel X Y) = _
    rw [hp]
    by_cases hin : insideClip c X Y = true ∧ tileCovering X Y = t
    · have h1 : ((X : Int) - ((8 * tileCol t : Nat) : Int)).toNat = X % 8 := by
        have := hin.2
        unfold tileCovering at this
        unfold tileCol
        omega
      have h2 : ((Y : Int) - ((8 * tileRow t : Nat) : Int)).toNat = Y % 8 := by
        have := hin.2
        unfold tileCovering at this
        unfold tileRow
        omega
      rw [if_pos hin, if_pos ⟨hin.1, hin.2, hcat⟩, h1, h2, Option.getD_some, State.background, hin.2]
    · rw [if_neg hin, if_neg (fun h => hin ⟨h.1, h.2.1⟩)]
      rfl
  · rw [if_neg hcat, hp, if_neg (fun h => hcat h.2.2)]

/-! ## The tilemap draw -/

theorem foldl_drawTile_eq (cat : Category) (c : Clip) (tiles : List Nat) (s : State) :
    tiles.foldl (drawTile cat c) s =
      { s with
        dirty := (tiles.foldl (drawTile cat c) s).dirty
        cache := (tiles.foldl (drawTile cat c) s).cache
        fb := (tiles.foldl (drawTile cat c) s).fb } := by
  induction tiles generalizing s with
  | nil => rfl
  | cons t tiles ih =>
    rw [List.foldl_cons, ih]
    rw [drawTile_eq]

/-- TMD's draw changes nothing but FB and the hidden state (42_tilemap.md R151). -/
theorem drawTilemap_eq (cat : Category) (c : Clip) (s : State) :
    drawTilemap cat c s =
      { s with
        dirty := (drawTilemap cat c s).dirty
        cache := (drawTilemap cat c s).cache
        fb := (drawTilemap cat c s).fb } :=
  foldl_drawTile_eq cat c (tilesMeeting c) s

theorem foldl_drawTile_coherent {cat : Category} {c : Clip} (tiles : List Nat) {s : State} (hs : s.CacheCoherent) :
    (tiles.foldl (drawTile cat c) s).CacheCoherent := by
  induction tiles generalizing s with
  | nil => exact hs
  | cons t tiles ih => exact ih (drawTile_coherent hs)

/-- The tilemap draw keeps the cache invariant (10_state.md R28). -/
theorem drawTilemap_coherent {cat : Category} {c : Clip} {s : State} (hs : s.CacheCoherent) :
    (drawTilemap cat c s).CacheCoherent := foldl_drawTile_coherent (tilesMeeting c) hs

theorem isDirty_foldl_drawTile (cat : Category) (c : Clip) (tiles : List Nat) (s : State) (a : Nat) :
    (tiles.foldl (drawTile cat c) s).isDirty a = if a ∈ tiles then false else s.isDirty a := by
  induction tiles generalizing s with
  | nil => simp
  | cons t tiles ih =>
    rw [List.foldl_cons, ih, isDirty_drawTile]
    by_cases h1 : a ∈ tiles <;> by_cases h2 : a = t <;> simp [h1, h2]

theorem mem_tilesMeeting {c : Clip} {t : Nat} : t ∈ tilesMeeting c ↔ t < 1024 ∧ tileMeets t c = true := by
  simp [tilesMeeting]

/-- The dirty bits after the tilemap draw: cleared for every tile that meets the clip (42_tilemap.md R146). -/
theorem isDirty_drawTilemap (cat : Category) (c : Clip) (s : State) (a : Nat) :
    (drawTilemap cat c s).isDirty a = if a < 1024 ∧ tileMeets a c = true then false else s.isDirty a := by
  rw [drawTilemap, isDirty_foldl_drawTile]
  simp only [mem_tilesMeeting]

theorem pixel_foldl_drawTile {cat : Category} {c : Clip} {X Y : Nat} (hX : X < 256) (tiles : List Nat)
    (htiles : ∀ t ∈ tiles, t < 1024) {s : State} (hs : s.CacheCoherent) :
    (tiles.foldl (drawTile cat c) s).pixel X Y =
      if insideClip c X Y = true ∧ tileCovering X Y ∈ tiles ∧ (s.tileAt (tileCovering X Y)).priorityCategory = cat then
        s.background X Y
      else s.pixel X Y := by
  induction tiles generalizing s with
  | nil => simp
  | cons t tiles ih =>
    rw [List.foldl_cons, ih (fun t' h => htiles t' (List.mem_cons_of_mem t h)) (drawTile_coherent hs),
      pixel_drawTile hs (htiles t List.mem_cons_self) hX, tileAt_drawTile, background_drawTile]
    by_cases hc : insideClip c X Y = true
    · by_cases ht : tileCovering X Y = t
      · subst ht
        by_cases hcat : (s.tileAt (tileCovering X Y)).priorityCategory = cat <;> simp [hc, hcat]
      · simp [hc, ht]
    · simp [hc]

theorem tileCovering_lt {X Y : Nat} (hX : X < 256) (hY : Y < 256) : tileCovering X Y < 1024 := by
  unfold tileCovering
  omega

theorem tileMeets_eq_true (t : Nat) (c : Clip) :
    tileMeets t c = true ↔
      8 * tileCol t ≤ c.maxX.toNat ∧ c.minX.toNat ≤ 8 * tileCol t + 7 ∧ 8 * tileRow t ≤ c.maxY.toNat ∧
        c.minY.toNat ≤ 8 * tileRow t + 7 ∧ c.minX.toNat ≤ c.maxX.toNat ∧ c.minY.toNat ≤ c.maxY.toNat := by
  simp [tileMeets, and_assoc]

theorem tileMeets_of_inside {c : Clip} {X Y : Nat} (hX : X < 256) (h : insideClip c X Y = true) :
    tileMeets (tileCovering X Y) c = true := by
  have h := (inClip_eq_true c X Y).mp h
  rw [tileMeets_eq_true]
  unfold tileCol tileRow tileCovering
  omega

/-- The pixels of the tilemap draw: inside the clip, those of tiles of the category (42_tilemap.md R147). -/
theorem pixel_drawTilemap {cat : Category} {c : Clip} {s : State} {X Y : Nat} (hs : s.CacheCoherent) (hX : X < 256)
    (hY : Y < 256) :
    (drawTilemap cat c s).pixel X Y =
      if insideClip c X Y = true ∧ (s.tileAt (tileCovering X Y)).priorityCategory = cat then s.background X Y
      else s.pixel X Y := by
  rw [drawTilemap, pixel_foldl_drawTile hX _ (fun t h => (mem_tilesMeeting.mp h).1) hs]
  by_cases hc : insideClip c X Y = true
  · simp [hc, mem_tilesMeeting, tileCovering_lt hX hY, tileMeets_of_inside hX hc]
  · simp [hc]

end Sys2Proof.Machine
end

