-- ==== Sys2Proof/Laws/Fields.lean ====
section
/-!
SUPPORT. The fields the draws leave as they are, one lemma each.
-/

namespace Sys2Proof.Machine

/-! ## The fields after drawSprites -/

@[simp] theorem drawSprites_board (c : Clip) (s : State) : (drawSprites c s).board = s.board := by rw [drawSprites_eq]
@[simp] theorem drawSprites_base (c : Clip) (s : State) : (drawSprites c s).base = s.base := by rw [drawSprites_eq]
@[simp] theorem drawSprites_pen (c : Clip) (s : State) : (drawSprites c s).pen = s.pen := by rw [drawSprites_eq]
@[simp] theorem drawSprites_penValid (c : Clip) (s : State) : (drawSprites c s).penValid = s.penValid := by rw [drawSprites_eq]
@[simp] theorem drawSprites_tileCode (c : Clip) (s : State) : (drawSprites c s).tileCode = s.tileCode := by rw [drawSprites_eq]
@[simp] theorem drawSprites_tileAttr (c : Clip) (s : State) : (drawSprites c s).tileAttr = s.tileAttr := by rw [drawSprites_eq]
@[simp] theorem drawSprites_dirty (c : Clip) (s : State) : (drawSprites c s).dirty = s.dirty := by rw [drawSprites_eq]
@[simp] theorem drawSprites_cache (c : Clip) (s : State) : (drawSprites c s).cache = s.cache := by rw [drawSprites_eq]
@[simp] theorem drawSprites_sprPrimary (c : Clip) (s : State) : (drawSprites c s).sprPrimary = s.sprPrimary := by rw [drawSprites_eq]
@[simp] theorem drawSprites_sprSecondary (c : Clip) (s : State) : (drawSprites c s).sprSecondary = s.sprSecondary := by rw [drawSprites_eq]
@[simp] theorem drawSprites_videoEnable (c : Clip) (s : State) : (drawSprites c s).videoEnable = s.videoEnable := by rw [drawSprites_eq]
@[simp] theorem drawSprites_flipScreen (c : Clip) (s : State) : (drawSprites c s).flipScreen = s.flipScreen := by rw [drawSprites_eq]
@[simp] theorem drawSprites_pending (c : Clip) (s : State) : (drawSprites c s).pending = s.pending := by rw [drawSprites_eq]
@[simp] theorem drawSprites_responses (c : Clip) (s : State) : (drawSprites c s).responses = s.responses := by rw [drawSprites_eq]
@[simp] theorem drawSprites_faultMark (c : Clip) (s : State) : (drawSprites c s).faultMark = s.faultMark := by rw [drawSprites_eq]
@[simp] theorem drawSprites_scanDraws (c : Clip) (s : State) : (drawSprites c s).scanDraws = s.scanDraws := by rw [drawSprites_eq]

/-! ## The fields after drawTilemap -/

@[simp] theorem drawTilemap_board (cat : Category) (c : Clip) (s : State) : (drawTilemap cat c s).board = s.board := by rw [drawTilemap_eq]
@[simp] theorem drawTilemap_base (cat : Category) (c : Clip) (s : State) : (drawTilemap cat c s).base = s.base := by rw [drawTilemap_eq]
@[simp] theorem drawTilemap_pen (cat : Category) (c : Clip) (s : State) : (drawTilemap cat c s).pen = s.pen := by rw [drawTilemap_eq]
@[simp] theorem drawTilemap_penValid (cat : Category) (c : Clip) (s : State) : (drawTilemap cat c s).penValid = s.penValid := by rw [drawTilemap_eq]
@[simp] theorem drawTilemap_tileCode (cat : Category) (c : Clip) (s : State) : (drawTilemap cat c s).tileCode = s.tileCode := by rw [drawTilemap_eq]
@[simp] theorem drawTilemap_tileAttr (cat : Category) (c : Clip) (s : State) : (drawTilemap cat c s).tileAttr = s.tileAttr := by rw [drawTilemap_eq]
@[simp] theorem drawTilemap_sprPrimary (cat : Category) (c : Clip) (s : State) : (drawTilemap cat c s).sprPrimary = s.sprPrimary := by rw [drawTilemap_eq]
@[simp] theorem drawTilemap_sprSecondary (cat : Category) (c : Clip) (s : State) : (drawTilemap cat c s).sprSecondary = s.sprSecondary := by rw [drawTilemap_eq]
@[simp] theorem drawTilemap_videoEnable (cat : Category) (c : Clip) (s : State) : (drawTilemap cat c s).videoEnable = s.videoEnable := by rw [drawTilemap_eq]
@[simp] theorem drawTilemap_flipScreen (cat : Category) (c : Clip) (s : State) : (drawTilemap cat c s).flipScreen = s.flipScreen := by rw [drawTilemap_eq]
@[simp] theorem drawTilemap_pending (cat : Category) (c : Clip) (s : State) : (drawTilemap cat c s).pending = s.pending := by rw [drawTilemap_eq]
@[simp] theorem drawTilemap_responses (cat : Category) (c : Clip) (s : State) : (drawTilemap cat c s).responses = s.responses := by rw [drawTilemap_eq]
@[simp] theorem drawTilemap_faultMark (cat : Category) (c : Clip) (s : State) : (drawTilemap cat c s).faultMark = s.faultMark := by rw [drawTilemap_eq]
@[simp] theorem drawTilemap_scanDraws (cat : Category) (c : Clip) (s : State) : (drawTilemap cat c s).scanDraws = s.scanDraws := by rw [drawTilemap_eq]

/-! ## The fields after renderFrame -/

@[simp] theorem renderFrame_board (c : Clip) (s : State) : (renderFrame c s).board = s.board := by simp [renderFrame]
@[simp] theorem renderFrame_base (c : Clip) (s : State) : (renderFrame c s).base = s.base := by simp [renderFrame]
@[simp] theorem renderFrame_pen (c : Clip) (s : State) : (renderFrame c s).pen = s.pen := by simp [renderFrame]
@[simp] theorem renderFrame_penValid (c : Clip) (s : State) : (renderFrame c s).penValid = s.penValid := by simp [renderFrame]
@[simp] theorem renderFrame_tileCode (c : Clip) (s : State) : (renderFrame c s).tileCode = s.tileCode := by simp [renderFrame]
@[simp] theorem renderFrame_tileAttr (c : Clip) (s : State) : (renderFrame c s).tileAttr = s.tileAttr := by simp [renderFrame]
@[simp] theorem renderFrame_sprPrimary (c : Clip) (s : State) : (renderFrame c s).sprPrimary = s.sprPrimary := by simp [renderFrame]
@[simp] theorem renderFrame_sprSecondary (c : Clip) (s : State) : (renderFrame c s).sprSecondary = s.sprSecondary := by simp [renderFrame]
@[simp] theorem renderFrame_videoEnable (c : Clip) (s : State) : (renderFrame c s).videoEnable = s.videoEnable := by simp [renderFrame]
@[simp] theorem renderFrame_flipScreen (c : Clip) (s : State) : (renderFrame c s).flipScreen = s.flipScreen := by simp [renderFrame]
@[simp] theorem renderFrame_pending (c : Clip) (s : State) : (renderFrame c s).pending = s.pending := by simp [renderFrame]
@[simp] theorem renderFrame_responses (c : Clip) (s : State) : (renderFrame c s).responses = s.responses := by simp [renderFrame]
@[simp] theorem renderFrame_faultMark (c : Clip) (s : State) : (renderFrame c s).faultMark = s.faultMark := by simp [renderFrame]
@[simp] theorem renderFrame_scanDraws (c : Clip) (s : State) : (renderFrame c s).scanDraws = s.scanDraws := by simp [renderFrame]

end Sys2Proof.Machine
end

