-- ==== Sys2Proof/Laws/Congr.lean ====
section
/-!
SUPPORT. What depends on a few fields of the state alone: the decode of a tile, the background, the sprite layer, the cache
invariant, and what the two draws write.
-/

namespace Sys2Proof.Machine

/-! ## Pens, tiles and sprites -/

/-- The pen of a tile depends on the character graphics alone. -/
theorem tilePen_congr {b b' : Board} (hg : b'.charGfx = b.charGfx) : tilePen b' = tilePen b := by
  funext d dx dy
  simp only [tilePen, Board.charPixel, hg]

/-- What a sprite paints depends on the sprite size and graphics alone. -/
theorem spritePaint_congr {b b' : Board} (hw : b'.spriteW = b.spriteW) (hh : b'.spriteH = b.spriteH)
    (hg : b'.spriteGfx = b.spriteGfx) : spritePaint b' = spritePaint b := by
  funext p dx dy
  have h : spriteValue b' p dx dy = spriteValue b p dx dy := by
    simp only [spriteValue, Board.spritePixel, Board.spriteIndex, hw, hh, hg]
  unfold spritePaint
  rw [h]

/-- The decode of a tile depends on the variant and tile memory alone. -/
theorem tileAt_congr {s t : State} (hv : t.board.variant = s.board.variant) (hc : t.tileCode = s.tileCode)
    (ha : t.tileAttr = s.tileAttr) (a : Nat) : t.tileAt a = s.tileAt a := by
  simp only [State.tileAt, State.readTC, State.readTA, hv, hc, ha]

/-- The background of a pixel depends on the variant, the character graphics and tile memory alone. -/
theorem background_congr {s t : State} (hv : t.board.variant = s.board.variant)
    (hg : t.board.charGfx = s.board.charGfx) (hc : t.tileCode = s.tileCode) (ha : t.tileAttr = s.tileAttr) (x y : Nat) :
    t.background x y = s.background x y := by
  simp only [State.background, tileAt_congr hv hc ha, tilePen_congr hg]

/-- A slot's sprite depends on the two bytes at its offsets in each sprite table alone. -/
theorem spriteAt_congr {s t : State} {o : Nat} (hp : t.readSP o = s.readSP o) (hp' : t.readSP (o + 1) = s.readSP (o + 1))
    (hs : t.readSS o = s.readSS o) (hs' : t.readSS (o + 1) = s.readSS (o + 1)) : t.spriteAt o = s.spriteAt o := by
  simp only [State.spriteAt, hp, hp', hs, hs']

/-- What a slot shows depends on its sprite and the sprite size and graphics alone. -/
theorem spriteShows_congr {s t : State} (hw : t.board.spriteW = s.board.spriteW)
    (hh : t.board.spriteH = s.board.spriteH) (hg : t.board.spriteGfx = s.board.spriteGfx) {o : Nat}
    (ho : t.spriteAt o = s.spriteAt o) (x y : Nat) : t.spriteShows o x y = s.spriteShows o x y := by
  simp only [State.spriteShows, hw, hh, ho, spritePaint_congr hw hh hg]

/-- The sprite layer depends on the sprite size and graphics and the sprite tables alone. -/
theorem topSprite_congr {s t : State} (hw : t.board.spriteW = s.board.spriteW)
    (hh : t.board.spriteH = s.board.spriteH) (hg : t.board.spriteGfx = s.board.spriteGfx)
    (hp : t.sprPrimary = s.sprPrimary) (hs : t.sprSecondary = s.sprSecondary) (x y : Nat) :
    t.topSprite x y = s.topSprite x y := by
  have h : (fun o => t.spriteShows o x y) = fun o => s.spriteShows o x y := by
    funext o
    exact spriteShows_congr hw hh hg
      (spriteAt_congr (by simp only [State.readSP, hp]) (by simp only [State.readSP, hp])
        (by simp only [State.readSS, hs]) (by simp only [State.readSS, hs])) x y
  simp only [State.topSprite, h]

/-- The cache invariant depends on the variant, tile memory and the hidden state alone. -/
theorem coherent_congr {s t : State} (hv : t.board.variant = s.board.variant) (hc : t.tileCode = s.tileCode)
    (ha : t.tileAttr = s.tileAttr) (hd : t.dirty = s.dirty) (hk : t.cache = s.cache) :
    t.CacheCoherent ↔ s.CacheCoherent := by
  simp only [State.CacheCoherent, State.isDirty, State.cachedTile, tileAt_congr hv hc ha, hd, hk]

/-- The canonical form of the memories depends on the seven memories alone. -/
theorem memoryWf_congr {s t : State} (hc : t.tileCode = s.tileCode) (ha : t.tileAttr = s.tileAttr)
    (hd : t.dirty = s.dirty) (hk : t.cache = s.cache) (hp : t.sprPrimary = s.sprPrimary)
    (hs : t.sprSecondary = s.sprSecondary) (hf : t.fb = s.fb) (h : s.MemoryWf) : t.MemoryWf :=
  ⟨hc ▸ h.tileCode, ha ▸ h.tileAttr, hd ▸ h.dirty, hk ▸ h.cache, hp ▸ h.sprPrimary, hs ▸ h.sprSecondary, hf ▸ h.fb⟩

/-- A state with the tables of one that meets the invariant meets it too, for the same board at the last PLD, if its
memories, its cache and its mark do. -/
theorem invFrom_congr {b : Board} {s t : State} (h : s.InvFrom b) (hb : t.base = s.base) (hp : t.pen = s.pen)
    (hv : t.penValid = s.penValid) (hm : t.MemoryWf) (hc : t.CacheCoherent) (hk : t.MarkExact) : t.InvFrom b where
  memory := hm
  tables := by
    unfold State.TablesSized
    rw [hb, hp]
    exact h.tables
  palette := by
    unfold State.PaletteFrom
    rw [hb, hp, hv]
    exact h.palette
  cache := hc
  mark := hk

@[simp] theorem drawSprites_tileAt (c : Clip) (s : State) (a : Nat) : (drawSprites c s).tileAt a = s.tileAt a :=
  tileAt_congr (by simp) (by simp) (by simp) a
@[simp] theorem drawSprites_background (c : Clip) (s : State) (x y : Nat) :
    (drawSprites c s).background x y = s.background x y :=
  background_congr (by simp) (by simp) (by simp) (by simp) x y
@[simp] theorem drawSprites_topSprite (c : Clip) (s : State) (x y : Nat) :
    (drawSprites c s).topSprite x y = s.topSprite x y :=
  topSprite_congr (by simp) (by simp) (by simp) (by simp) (by simp) x y
@[simp] theorem drawTilemap_tileAt (cat : Category) (c : Clip) (s : State) (a : Nat) :
    (drawTilemap cat c s).tileAt a = s.tileAt a := tileAt_congr (by simp) (by simp) (by simp) a
@[simp] theorem drawTilemap_background (cat : Category) (c : Clip) (s : State) (x y : Nat) :
    (drawTilemap cat c s).background x y = s.background x y :=
  background_congr (by simp) (by simp) (by simp) (by simp) x y
@[simp] theorem drawTilemap_topSprite (cat : Category) (c : Clip) (s : State) (x y : Nat) :
    (drawTilemap cat c s).topSprite x y = s.topSprite x y :=
  topSprite_congr (by simp) (by simp) (by simp) (by simp) (by simp) x y

/-- The sprite draw keeps the cache invariant. -/
theorem drawSprites_coherent {c : Clip} {s : State} (h : s.CacheCoherent) : (drawSprites c s).CacheCoherent :=
  (coherent_congr (by simp) (by simp) (by simp) (by simp) (by simp)).mpr h

/-- A frame keeps the cache invariant. -/
theorem renderFrame_coherent {c : Clip} {s : State} (h : s.CacheCoherent) : (renderFrame c s).CacheCoherent :=
  drawTilemap_coherent (drawSprites_coherent (drawTilemap_coherent h))

/-! ## The sprite draw: what it writes -/

theorem foldl_blitSprite_congr {c : Clip} (slots : List Nat) {s t : State}
    (hw : t.board.spriteW = s.board.spriteW) (hh : t.board.spriteH = s.board.spriteH)
    (hg : t.board.spriteGfx = s.board.spriteGfx) (ho : ∀ o ∈ slots, t.spriteAt o = s.spriteAt o) (hf : t.fb = s.fb) :
    (slots.foldl (State.blitSprite c) t).fb = (slots.foldl (State.blitSprite c) s).fb := by
  induction slots generalizing s t with
  | nil => exact hf
  | cons o slots ih =>
    refine ih hw hh hg (fun o' h => ho o' (List.mem_cons_of_mem o h)) ?_
    simp only [State.blitSprite, ho o List.mem_cons_self, hw, hh, hf, spritePaint_congr hw hh hg]

/-- What SPD's draw leaves in FB depends on the sprite size and graphics, the 24 slots and FB alone. -/
theorem drawSprites_congr {c : Clip} {s t : State} (hw : t.board.spriteW = s.board.spriteW)
    (hh : t.board.spriteH = s.board.spriteH) (hg : t.board.spriteGfx = s.board.spriteGfx)
    (ho : ∀ o ∈ spriteSlots, t.spriteAt o = s.spriteAt o) (hf : t.fb = s.fb) :
    (drawSprites c t).fb = (drawSprites c s).fb := foldl_blitSprite_congr spriteSlots hw hh hg ho hf

/-! ## The tilemap draw: what it writes -/

/-- The two states agree in all that the tilemap draw reads or writes. -/
structure State.SameTiles (s t : State) : Prop where
  variant : t.board.variant = s.board.variant
  charGfx : t.board.charGfx = s.board.charGfx
  tileCode : t.tileCode = s.tileCode
  tileAttr : t.tileAttr = s.tileAttr
  dirty : t.dirty = s.dirty
  cache : t.cache = s.cache
  fb : t.fb = s.fb

theorem refresh_sameTiles {s t : State} (h : s.SameTiles t) (a : Nat) : (s.refresh a).SameTiles (t.refresh a) := by
  have hd : t.isDirty a = s.isDirty a := by simp only [State.isDirty, h.dirty]
  have ht : t.tileAt a = s.tileAt a := tileAt_congr h.variant h.tileCode h.tileAttr a
  unfold State.refresh
  rw [hd, ht]
  split
  · exact ⟨h.variant, h.charGfx, h.tileCode, h.tileAttr, by simp only [State.markClean, State.writeCache, h.dirty],
      by simp only [State.markClean, State.writeCache, h.cache], h.fb⟩
  · exact h

theorem drawTile_sameTiles {cat : Category} {c : Clip} {s t : State} (h : s.SameTiles t) (a : Nat) :
    (drawTile cat c s a).SameTiles (drawTile cat c t a) := by
  have hr := refresh_sameTiles h a
  have hk : (t.refresh a).cachedTile a = (s.refresh a).cachedTile a := by simp only [State.cachedTile, hr.cache]
  unfold drawTile
  rw [hk]
  split
  · exact ⟨hr.variant, hr.charGfx, hr.tileCode, hr.tileAttr, hr.dirty, hr.cache,
      by simp only [State.blitTile, tilePen_congr hr.charGfx, hr.fb]⟩
  · exact hr

/-- What TMD's draw leaves in FB, the dirty bits and the cache depends on the variant, the character graphics, tile memory
and those three alone. -/
theorem drawTilemap_sameTiles {cat : Category} {c : Clip} {s t : State} (h : s.SameTiles t) :
    (drawTilemap cat c s).SameTiles (drawTilemap cat c t) := by
  unfold drawTilemap
  generalize tilesMeeting c = tiles
  induction tiles generalizing s t with
  | nil => exact h
  | cons a tiles ih => exact ih (drawTile_sameTiles h a)

end Sys2Proof.Machine
end

