-- ==== Sys2Proof/Laws/Decode.lean ====
section
/-!
SUPPORT. The fields of an encoded word, format by format, and the cases in which a word decodes (30_encoding.md R81 to R85).
-/

namespace Sys2Proof

/-! ## The fields of each format's word -/

@[simp] theorem opcodeOf_formatN (op : Byte) : opcodeOf (formatN op) = op := by
  apply BitVec.eq_of_getLsbD_eq
  intro j hj
  simp only [opcodeOf, formatN, BitVec.getLsbD_extractLsb', BitVec.getLsbD_append]
  interval_cases j <;> simp

@[simp] theorem opcodeOf_formatP (op : Byte) (pen : Nat) : opcodeOf (formatP op pen) = op := by
  apply BitVec.eq_of_getLsbD_eq
  intro j hj
  simp only [opcodeOf, formatP, BitVec.getLsbD_extractLsb', BitVec.getLsbD_append]
  interval_cases j <;> simp

@[simp] theorem opcodeOf_formatW (op : Byte) (off : Nat) (val : Byte) : opcodeOf (formatW op off val) = op := by
  apply BitVec.eq_of_getLsbD_eq
  intro j hj
  simp only [opcodeOf, formatW, BitVec.getLsbD_extractLsb', BitVec.getLsbD_append]
  interval_cases j <;> simp

@[simp] theorem opcodeOf_formatF (op : Byte) (f : Bool) : opcodeOf (formatF op f) = op := by
  apply BitVec.eq_of_getLsbD_eq
  intro j hj
  simp only [opcodeOf, formatF, BitVec.getLsbD_extractLsb', BitVec.getLsbD_append]
  interval_cases j <;> simp

@[simp] theorem opcodeOf_formatC (op : Byte) (c : Clip) : opcodeOf (formatC op c) = op := by
  apply BitVec.eq_of_getLsbD_eq
  intro j hj
  simp only [opcodeOf, formatC, BitVec.getLsbD_extractLsb', BitVec.getLsbD_append]
  interval_cases j <;> simp

@[simp] theorem zeroN_formatN (op : Byte) : zeroN (formatN op) = true := by
  simp only [zeroN, decide_eq_true_eq]
  apply BitVec.eq_of_getLsbD_eq
  intro j hj
  simp only [formatN, BitVec.getLsbD_extractLsb', BitVec.getLsbD_append]
  interval_cases j <;> simp

@[simp] theorem zeroP_formatP (op : Byte) (pen : Nat) : zeroP (formatP op pen) = true := by
  simp only [zeroP, decide_eq_true_eq]
  apply BitVec.eq_of_getLsbD_eq
  intro j hj
  simp only [formatP, BitVec.getLsbD_extractLsb', BitVec.getLsbD_append]
  interval_cases j <;> simp

@[simp] theorem zeroW_formatW (op : Byte) (off : Nat) (val : Byte) : zeroW (formatW op off val) = true := by
  simp only [zeroW, decide_eq_true_eq]
  apply BitVec.eq_of_getLsbD_eq
  intro j hj
  simp only [formatW, BitVec.getLsbD_extractLsb', BitVec.getLsbD_append]
  interval_cases j <;> simp

@[simp] theorem zeroF_formatF (op : Byte) (f : Bool) : zeroF (formatF op f) = true := by
  simp only [zeroF, decide_eq_true_eq]
  apply BitVec.eq_of_getLsbD_eq
  intro j hj
  simp only [formatF, BitVec.getLsbD_extractLsb', BitVec.getLsbD_append]
  interval_cases j <;> simp

@[simp] theorem penField_formatP (op : Byte) (pen : Nat) : penField (formatP op pen) = BitVec.ofNat 16 pen := by
  apply BitVec.eq_of_getLsbD_eq
  intro j hj
  simp only [penField, formatP, BitVec.getLsbD_extractLsb', BitVec.getLsbD_append]
  interval_cases j <;> simp

@[simp] theorem offField_formatW (op : Byte) (off : Nat) (val : Byte) : offField (formatW op off val) = BitVec.ofNat 16 off := by
  apply BitVec.eq_of_getLsbD_eq
  intro j hj
  simp only [offField, formatW, BitVec.getLsbD_extractLsb', BitVec.getLsbD_append]
  interval_cases j <;> simp

@[simp] theorem valField_formatW (op : Byte) (off : Nat) (val : Byte) : valField (formatW op off val) = val := by
  apply BitVec.eq_of_getLsbD_eq
  intro j hj
  simp only [valField, formatW, BitVec.getLsbD_extractLsb', BitVec.getLsbD_append]
  interval_cases j <;> simp

@[simp] theorem flagField_formatF (op : Byte) (f : Bool) : flagField (formatF op f) = f := by
  simp only [flagField, formatF, BitVec.getLsbD_append, BitVec.getLsbD_ofBool]
  simp

@[simp] theorem clipField_formatC (op : Byte) (c : Clip) : clipField (formatC op c) = c := by
  obtain ⟨a, b, c, d⟩ := c
  simp only [clipField, Clip.mk.injEq]
  refine ⟨?_, ?_, ?_, ?_⟩ <;>
  · apply BitVec.eq_of_getLsbD_eq
    intro j hj
    simp only [formatC, BitVec.getLsbD_extractLsb', BitVec.getLsbD_append]
    interval_cases j <;> simp

/-! ## When a word decodes -/

theorem whenZero_eq_command {w : CommandWord} {z : Bool} {i j : Instr} (h : whenZero w z i = .command j) :
    z = true ∧ j = i := by
  cases z with
  | false => simp [whenZero] at h
  | true => exact ⟨rfl, (Decoded.command.inj h).symm⟩

/-- A word that decodes to `i` has one of the thirteen opcodes, zero zero-fields, and its operands in `i`. -/
theorem decode_cases {w : CommandWord} {i : Instr} (h : decode w = .command i) :
    (opcodeOf w = 0x01#8 ∧ zeroN w = true ∧ i = .pld) ∨
    (opcodeOf w = 0x02#8 ∧ zeroP w = true ∧ i = (.prd (penField w).toNat)) ∨
    (opcodeOf w = 0x10#8 ∧ zeroW w = true ∧ i = (.twc (offField w).toNat (valField w))) ∨
    (opcodeOf w = 0x11#8 ∧ zeroW w = true ∧ i = (.twa (offField w).toNat (valField w))) ∨
    (opcodeOf w = 0x20#8 ∧ zeroW w = true ∧ i = (.swp (offField w).toNat (valField w))) ∨
    (opcodeOf w = 0x21#8 ∧ zeroW w = true ∧ i = (.sws (offField w).toNat (valField w))) ∨
    (opcodeOf w = 0x30#8 ∧ zeroF w = true ∧ i = (.ven (flagField w))) ∨
    (opcodeOf w = 0x31#8 ∧ zeroF w = true ∧ i = (.flp (flagField w))) ∨
    (opcodeOf w = 0x32#8 ∧ zeroN w = true ∧ i = .rsl) ∨
    (opcodeOf w = 0x40#8 ∧ i = (.rfr (clipField w))) ∨
    (opcodeOf w = 0x42#8 ∧ i = (.tmd .below (clipField w))) ∨
    (opcodeOf w = 0x43#8 ∧ i = (.tmd .above (clipField w))) ∨
    (opcodeOf w = 0x44#8 ∧ i = (.spd (clipField w))) := by
  simp only [decode] at h
  by_cases c0 : opcodeOf w = 0x01#8
  · rw [if_pos c0] at h
    exact Or.inl ⟨c0, whenZero_eq_command h⟩
  rw [if_neg c0] at h
  by_cases c1 : opcodeOf w = 0x02#8
  · rw [if_pos c1] at h
    exact Or.inr (Or.inl ⟨c1, whenZero_eq_command h⟩)
  rw [if_neg c1] at h
  by_cases c2 : opcodeOf w = 0x10#8
  · rw [if_pos c2] at h
    exact Or.inr (Or.inr (Or.inl ⟨c2, whenZero_eq_command h⟩))
  rw [if_neg c2] at h
  by_cases c3 : opcodeOf w = 0x11#8
  · rw [if_pos c3] at h
    exact Or.inr (Or.inr (Or.inr (Or.inl ⟨c3, whenZero_eq_command h⟩)))
  rw [if_neg c3] at h
  by_cases c4 : opcodeOf w = 0x20#8
  · rw [if_pos c4] at h
    exact Or.inr (Or.inr (Or.inr (Or.inr (Or.inl ⟨c4, whenZero_eq_command h⟩))))
  rw [if_neg c4] at h
  by_cases c5 : opcodeOf w = 0x21#8
  · rw [if_pos c5] at h
    exact Or.inr (Or.inr (Or.inr (Or.inr (Or.inr (Or.inl ⟨c5, whenZero_eq_command h⟩)))))
  rw [if_neg c5] at h
  by_cases c6 : opcodeOf w = 0x30#8
  · rw [if_pos c6] at h
    exact Or.inr (Or.inr (Or.inr (Or.inr (Or.inr (Or.inr (Or.inl ⟨c6, whenZero_eq_command h⟩))))))
  rw [if_neg c6] at h
  by_cases c7 : opcodeOf w = 0x31#8
  · rw [if_pos c7] at h
    exact Or.inr (Or.inr (Or.inr (Or.inr (Or.inr (Or.inr (Or.inr (Or.inl ⟨c7, whenZero_eq_command h⟩)))))))
  rw [if_neg c7] at h
  by_cases c8 : opcodeOf w = 0x32#8
  · rw [if_pos c8] at h
    exact Or.inr (Or.inr (Or.inr (Or.inr (Or.inr (Or.inr (Or.inr (Or.inr (Or.inl ⟨c8, whenZero_eq_command h⟩))))))))
  rw [if_neg c8] at h
  by_cases c9 : opcodeOf w = 0x40#8
  · rw [if_pos c9] at h
    exact Or.inr (Or.inr (Or.inr (Or.inr (Or.inr (Or.inr (Or.inr (Or.inr (Or.inr (Or.inl ⟨c9, (Decoded.command.inj h).symm⟩)))))))))
  rw [if_neg c9] at h
  by_cases c10 : opcodeOf w = 0x42#8
  · rw [if_pos c10] at h
    exact Or.inr (Or.inr (Or.inr (Or.inr (Or.inr (Or.inr (Or.inr (Or.inr (Or.inr (Or.inr (Or.inl ⟨c10, (Decoded.command.inj h).symm⟩))))))))))
  rw [if_neg c10] at h
  by_cases c11 : opcodeOf w = 0x43#8
  · rw [if_pos c11] at h
    exact Or.inr (Or.inr (Or.inr (Or.inr (Or.inr (Or.inr (Or.inr (Or.inr (Or.inr (Or.inr (Or.inr (Or.inl ⟨c11, (Decoded.command.inj h).symm⟩)))))))))))
  rw [if_neg c11] at h
  by_cases c12 : opcodeOf w = 0x44#8
  · rw [if_pos c12] at h
    exact Or.inr (Or.inr (Or.inr (Or.inr (Or.inr (Or.inr (Or.inr (Or.inr (Or.inr (Or.inr (Or.inr (Or.inr (⟨c12, (Decoded.command.inj h).symm⟩))))))))))))
  rw [if_neg c12] at h
  exact absurd h (by simp)

end Sys2Proof
end

