-- ==== Sys2Proof/Laws/PerInstr.lean ====
section
/-!
SUPPORT. The masked word of each format, and the family RowMatches: the encoded word of a command selects the command's row of
the opcode table (30_encoding.md R84), one lemma per constructor.
-/

namespace Sys2Proof.Laws

/-! ## Masking the word of a format leaves the opcode -/

theorem formatN_masked (op : Byte) : formatN op &&& 0xFFFFFFFFFF#40 = op ++ 0#32 := by
  apply BitVec.eq_of_getLsbD_eq
  intro j hj
  simp only [formatN, BitVec.getLsbD_and, BitVec.getLsbD_append]
  interval_cases j <;> simp

theorem formatP_masked (op : Byte) (pen : Nat) : formatP op pen &&& 0xFFFFFF0000#40 = op ++ 0#32 := by
  apply BitVec.eq_of_getLsbD_eq
  intro j hj
  simp only [formatP, BitVec.getLsbD_and, BitVec.getLsbD_append]
  interval_cases j <;> simp

theorem formatW_masked (op : Byte) (off : Nat) (val : Byte) : formatW op off val &&& 0xFFFF000000#40 = op ++ 0#32 := by
  apply BitVec.eq_of_getLsbD_eq
  intro j hj
  simp only [formatW, BitVec.getLsbD_and, BitVec.getLsbD_append]
  interval_cases j <;> simp

theorem formatF_masked (op : Byte) (f : Bool) : formatF op f &&& 0xFFFFFFFFFE#40 = op ++ 0#32 := by
  apply BitVec.eq_of_getLsbD_eq
  intro j hj
  simp only [formatF, BitVec.getLsbD_and, BitVec.getLsbD_append]
  interval_cases j <;> simp

theorem formatC_masked (op : Byte) (c : Clip) : formatC op c &&& 0xFF00000000#40 = op ++ 0#32 := by
  apply BitVec.eq_of_getLsbD_eq
  intro j hj
  simp only [formatC, BitVec.getLsbD_and, BitVec.getLsbD_append]
  interval_cases j <;> simp

/-- TMD's mask leaves out the category, bit 32. -/
theorem formatC_masked_but_category (op : Byte) (c : Clip) :
    formatC op c &&& 0xFE00000000#40 = (op &&& 0xFE#8) ++ 0#32 := by
  apply BitVec.eq_of_getLsbD_eq
  intro j hj
  simp only [formatC, BitVec.getLsbD_and, BitVec.getLsbD_append]
  interval_cases j <;> simp

/-! ## The family -/

/-- The word of the command selects the command's row. -/
def RowMatches.Statement (i : Instr) : Prop := i.row.selects (encode i) = true

theorem RowMatches.pld : RowMatches.Statement .pld := decide_eq_true (formatN_masked 0x01#8)

theorem RowMatches.prd (pen : Nat) : RowMatches.Statement (.prd pen) := decide_eq_true (formatP_masked 0x02#8 pen)

theorem RowMatches.twc (off : Nat) (val : Byte) : RowMatches.Statement (.twc off val) :=
  decide_eq_true (formatW_masked 0x10#8 off val)

theorem RowMatches.twa (off : Nat) (val : Byte) : RowMatches.Statement (.twa off val) :=
  decide_eq_true (formatW_masked 0x11#8 off val)

theorem RowMatches.swp (off : Nat) (val : Byte) : RowMatches.Statement (.swp off val) :=
  decide_eq_true (formatW_masked 0x20#8 off val)

theorem RowMatches.sws (off : Nat) (val : Byte) : RowMatches.Statement (.sws off val) :=
  decide_eq_true (formatW_masked 0x21#8 off val)

theorem RowMatches.ven (f : Bool) : RowMatches.Statement (.ven f) := decide_eq_true (formatF_masked 0x30#8 f)

theorem RowMatches.flp (f : Bool) : RowMatches.Statement (.flp f) := decide_eq_true (formatF_masked 0x31#8 f)

theorem RowMatches.rsl : RowMatches.Statement .rsl := decide_eq_true (formatN_masked 0x32#8)

theorem RowMatches.rfr (c : Clip) : RowMatches.Statement (.rfr c) := decide_eq_true (formatC_masked 0x40#8 c)

theorem RowMatches.tmd (cat : Category) (c : Clip) : RowMatches.Statement (.tmd cat c) := by
  cases cat with
  | below => exact decide_eq_true (formatC_masked_but_category 0x42#8 c)
  | above => exact decide_eq_true (formatC_masked_but_category 0x43#8 c)

theorem RowMatches.spd (c : Clip) : RowMatches.Statement (.spd c) := decide_eq_true (formatC_masked 0x44#8 c)

end Sys2Proof.Laws
end

