-- ==== Sys2Proof/Laws/Wf.lean ====
section
/-!
SUPPORT. Every memory operation keeps the canonical form of every memory (10_state.md R37 (a)), and the reset state has it.
-/

namespace Sys2Proof.Machine

/-- Nothing is listed at reset. -/
theorem reset_memoryWf : State.reset.MemoryWf := ⟨rfl, rfl, rfl, rfl, rfl, rfl, rfl⟩

theorem memoryWf_writeTC {s : State} {t : Nat} (v : Byte) (ht : t < 1024) (h : s.MemoryWf) : (s.writeTC t v).MemoryWf :=
  { h with tileCode := Store.wf_write v ht h.tileCode }

theorem memoryWf_writeTA {s : State} {t : Nat} (v : Byte) (ht : t < 1024) (h : s.MemoryWf) : (s.writeTA t v).MemoryWf :=
  { h with tileAttr := Store.wf_write v ht h.tileAttr }

theorem memoryWf_writeSP {s : State} {o : Nat} (v : Byte) (ho : o < 64) (h : s.MemoryWf) : (s.writeSP o v).MemoryWf :=
  { h with sprPrimary := Store.wf_write v ho h.sprPrimary }

theorem memoryWf_writeSS {s : State} {o : Nat} (v : Byte) (ho : o < 64) (h : s.MemoryWf) : (s.writeSS o v).MemoryWf :=
  { h with sprSecondary := Store.wf_write v ho h.sprSecondary }

theorem memoryWf_markDirty {s : State} {t : Nat} (ht : t < 1024) (h : s.MemoryWf) : (s.markDirty t).MemoryWf :=
  { h with dirty := Store.wf_write true ht h.dirty }

theorem memoryWf_markClean {s : State} {t : Nat} (ht : t < 1024) (h : s.MemoryWf) : (s.markClean t).MemoryWf :=
  { h with dirty := Store.wf_write false ht h.dirty }

theorem memoryWf_writeCache {s : State} {t : Nat} (d : DecodedTile) (ht : t < 1024) (h : s.MemoryWf) :
    (s.writeCache t d).MemoryWf :=
  { h with cache := Store.wf_write d ht h.cache }

theorem memoryWf_pokePixel {s : State} (x y : Byte) (p : Pen) (h : s.MemoryWf) : (s.pokePixel x y p).MemoryWf :=
  { h with fb := wf_writePixel p x.isLt y.isLt h.fb }

theorem memoryWf_setFb {s : State} {fb : Buffer} (h : s.MemoryWf) (hfb : Buffer.wf fb = true) :
    State.MemoryWf { s with fb := fb } :=
  { h with fb := hfb }

theorem memoryWf_blitTile {s : State} (c : Clip) (t : Nat) (d : DecodedTile) (h : s.MemoryWf) :
    (s.blitTile c t d).MemoryWf :=
  memoryWf_setFb h (wf_blit h.fb)

theorem memoryWf_refresh {s : State} {t : Nat} (ht : t < 1024) (h : s.MemoryWf) : (s.refresh t).MemoryWf := by
  unfold State.refresh
  split
  · exact memoryWf_markClean ht (memoryWf_writeCache _ ht h)
  · exact h

theorem memoryWf_drawTile {cat : Category} {c : Clip} {s : State} {t : Nat} (ht : t < 1024) (h : s.MemoryWf) :
    (drawTile cat c s t).MemoryWf := by
  have hr := memoryWf_refresh ht h
  unfold drawTile
  split
  · exact memoryWf_blitTile _ _ _ hr
  · exact hr

theorem memoryWf_foldl_drawTile {cat : Category} {c : Clip} (tiles : List Nat) (ht : ∀ t ∈ tiles, t < 1024) {s : State}
    (h : s.MemoryWf) : (tiles.foldl (drawTile cat c) s).MemoryWf := by
  induction tiles generalizing s with
  | nil => exact h
  | cons t tiles ih =>
    exact ih (fun t' hm => ht t' (List.mem_cons_of_mem t hm)) (memoryWf_drawTile (ht t List.mem_cons_self) h)

/-- The tilemap draw keeps the canonical form. -/
theorem memoryWf_drawTilemap {cat : Category} {c : Clip} {s : State} (h : s.MemoryWf) : (drawTilemap cat c s).MemoryWf :=
  memoryWf_foldl_drawTile (tilesMeeting c) (fun _ hm => (mem_tilesMeeting.mp hm).1) h

/-- The sprite draw keeps the canonical form. -/
theorem memoryWf_drawSprites {c : Clip} {s : State} (h : s.MemoryWf) : (drawSprites c s).MemoryWf := by
  have hfb := wf_drawSprites (c := c) h.fb
  rw [drawSprites_eq]
  exact memoryWf_setFb h hfb

end Sys2Proof.Machine
end

