-- ==== Sys2Proof/Tests/Slice0.lean ====
section
/-!
SUPPORT. The model's own tests: the well-formedness checks, the decoder on words written out from 30_encoding.md R81 to R83,
one-step vectors of 95_test_vectors.md, and a witness for the hypotheses of every obligation that has some.
-/

namespace Sys2Proof.Tests

open Sys2Proof Sys2Proof.Machine

/-! ## WellFormed: an ill-formed term for each check (30_encoding.md R82) -/

theorem test_illformed_prd : (Instr.prd 65536).wellFormed = false := by decide
theorem test_illformed_twc : (Instr.twc 65536 0x07#8).wellFormed = false := by decide
theorem test_illformed_twa : (Instr.twa 65536 0x07#8).wellFormed = false := by decide
theorem test_illformed_swp : (Instr.swp 65536 0x07#8).wellFormed = false := by decide
theorem test_illformed_sws : (Instr.sws 65536 0x07#8).wellFormed = false := by decide

/-- The largest index a field holds is well formed (R82). -/
theorem test_wellformed_edges :
    (Instr.prd 65535).wellFormed = true ∧ (Instr.twc 65535 0xff#8).wellFormed = true ∧
      (Instr.twa 65535 0xff#8).wellFormed = true ∧ (Instr.swp 65535 0xff#8).wellFormed = true ∧
      (Instr.sws 65535 0xff#8).wellFormed = true := by decide

/-! ## Decoding: the words of V-ENC (95_test_vectors.md), each written from its format -/

/-- Format N: opcode 0x01, 32 zero bits. -/
theorem test_decode_pld : decode (0x01#8 ++ 0#32) = .command .pld ∧ decodeTableWord 40 0x0100000000 = some .pld := by
  decide

/-- Format P: opcode 0x02, 16 zero bits, the pen; 384 decodes too. -/
theorem test_decode_prd :
    decode (0x02#8 ++ 0#16 ++ 0x017f#16) = .command (.prd 383) ∧ decodeTableWord 40 0x020000017F = some (.prd 383) ∧
      decodeTableWord 40 0x0200000180 = some (.prd 384) := by decide

/-- Format W: opcode 0x10, 8 zero bits, the offset, the value. -/
theorem test_decode_twc :
    decode (0x10#8 ++ 0#8 ++ 0x024a#16 ++ 0x07#8) = .command (.twc 0x24a 0x07#8) ∧
      decodeTableWord 40 0x1000024A07 = some (.twc 0x24a 0x07#8) ∧
      decodeTableWord 40 0x1000040000 = some (.twc 0x400 0x00#8) := by decide

theorem test_decode_twa :
    decode (0x11#8 ++ 0#8 ++ 0x03ff#16 ++ 0xff#8) = .command (.twa 0x3ff 0xff#8) ∧
      decodeTableWord 40 0x110003FFFF = some (.twa 0x3ff 0xff#8) := by decide

theorem test_decode_swp :
    decode (0x20#8 ++ 0#8 ++ 0x0010#16 ++ 0x50#8) = .command (.swp 0x10 0x50#8) ∧
      decodeTableWord 40 0x2000001050 = some (.swp 0x10 0x50#8) := by decide

theorem test_decode_sws :
    decode (0x21#8 ++ 0#8 ++ 0x003f#16 ++ 0x00#8) = .command (.sws 0x3f 0x00#8) ∧
      decodeTableWord 40 0x2100003F00 = some (.sws 0x3f 0x00#8) := by decide

/-- Format F: opcode 0x30, 31 zero bits, the flag. -/
theorem test_decode_ven :
    decode (0x30#8 ++ 0#31 ++ 1#1) = .command (.ven true) ∧ decodeTableWord 40 0x3000000001 = some (.ven true) ∧
      decodeTableWord 40 0x3000000000 = some (.ven false) := by decide

theorem test_decode_flp :
    decode (0x31#8 ++ 0#31 ++ 1#1) = .command (.flp true) ∧ decodeTableWord 40 0x3100000001 = some (.flp true) := by
  decide

theorem test_decode_rsl : decode (0x32#8 ++ 0#32) = .command .rsl ∧ decodeTableWord 40 0x3200000000 = some .rsl := by
  decide

/-- Format C: opcode 0x40, minX, maxX, minY, maxY. -/
theorem test_decode_rfr :
    decode (0x40#8 ++ 0#8 ++ 255#8 ++ 16#8 ++ 239#8) = .command (.rfr ⟨0#8, 255#8, 16#8, 239#8⟩) ∧
      decodeTableWord 40 0x4000FF10EF = some (.rfr ⟨0#8, 255#8, 16#8, 239#8⟩) := by decide

/-- Opcodes 0x42 and 0x43 are the two categories of TMD. -/
theorem test_decode_tmd :
    decode (0x42#8 ++ 0#8 ++ 7#8 ++ 0#8 ++ 0#8) = .command (.tmd .below ⟨0#8, 7#8, 0#8, 0#8⟩) ∧
      decodeTableWord 40 0x4200070000 = some (.tmd .below ⟨0#8, 7#8, 0#8, 0#8⟩) ∧
      decodeTableWord 40 0x4300FF00FF = some (.tmd .above ⟨0#8, 255#8, 0#8, 255#8⟩) := by decide

theorem test_decode_spd :
    decode (0x44#8 ++ 0#8 ++ 255#8 ++ 0#8 ++ 255#8) = .command (.spd ⟨0#8, 255#8, 0#8, 255#8⟩) ∧
      decodeTableWord 40 0x4400FF00FF = some (.spd ⟨0#8, 255#8, 0#8, 255#8⟩) := by decide

/-- The eight words V-ENC lists as illegal. -/
theorem test_decode_illegal :
    decode 0x0000000000#40 = .illegal (.unknownOpcode 0x00#8) ∧ decode 0x4100000000#40 = .illegal (.unknownOpcode 0x41#8) ∧
      decode 0xFF00000000#40 = .illegal (.unknownOpcode 0xFF#8) ∧
      decode 0x0100000001#40 = .illegal (.nonzeroField 0x01#8) ∧
      decode 0x3000000002#40 = .illegal (.nonzeroField 0x30#8) ∧
      decode 0x1001000000#40 = .illegal (.nonzeroField 0x10#8) ∧
      decode 0x0200010000#40 = .illegal (.nonzeroField 0x02#8) ∧
      decode 0x3200000100#40 = .illegal (.nonzeroField 0x32#8) := by decide

/-- Their nearest legal neighbours (V-ENC). -/
theorem test_decode_neighbours :
    decodeTableWord 40 0x1000000000 = some (.twc 0 0#8) ∧ decodeTableWord 40 0x020000FFFF = some (.prd 65535) ∧
      decodeTableWord 40 0x4100000000 = none := by decide

/-- The byte stream of 20_memory.md R55: the opcode byte first, the next word after five bytes. -/
theorem test_decode_bytes :
    decodeBytes [0x10#8, 0x00#8, 0x02#8, 0x4a#8, 0x07#8, 0x32#8] = some (.command (.twc 0x24a 0x07#8), [0x32#8]) ∧
      decodeBytes [0x32#8, 0x00#8, 0x00#8, 0x00#8] = none := by decide

/-! ## The assembler (30_encoding.md R88, R89) -/

/-- The line of program P2's first sprite and its four words (95_test_vectors.md P2). -/
theorem test_assemble_sprite :
    assembleLine "SPRITE 0x10, 0x50, 0x64, 0x07, 0x00 ; slot 0x10" =
      some [0x2000001050#40, 0x2000001107#40, 0x2100001000#40, 0x2100001164#40] := by decide

/-- TMD's category comes first; a value that does not fit its field is rejected (R88). -/
theorem test_assemble_tmd :
    assembleLine "TMD 1, 0, 255, 0, 255" = some [0x4300FF00FF#40] ∧ assembleLine "TMD 2, 0, 255, 0, 255" = none ∧
      assembleLine "TWC 0x24a, 0x107" = none := by decide

/-! ## Configuration T and its states (95_test_vectors.md part 2) -/

/-- The cells of COLOR_PROM_T. -/
def colorPromT : Store Byte := (List.range 64).map (fun j => (j, BitVec.ofNat 8 (7 * j + 3)))

/-- The cells of LOOKUP_T. -/
def lookupT : Store Byte := (List.range 384).map (fun k => (k, BitVec.ofNat 8 (5 * k + 1)))

/-- CHAR_GFX_T of one row of a code. -/
def charRowT (code py : Nat) : Store Pixel :=
  (List.range 8).map (fun px => (64 * code + 8 * py + px, BitVec.ofNat 2 (code + px + 2 * py)))

/-- SPRITE_GFX_T of one row of a code. -/
def spriteRowT (code py : Nat) : Store Pixel :=
  (List.range 16).map (fun px => (256 * code + 16 * py + px, BitVec.ofNat 2 (code + px + 2 * py)))

/-- Configuration T, with the graphics rows the tests draw. -/
def boardT : Board where
  variant := .A
  promLayout := .contiguous
  spriteW := 16
  spriteH := 16
  colorProm := ⟨64, colorPromT⟩
  lookup := ⟨384, lookupT⟩
  charGfx := charRowT 0 1 ++ charRowT 0 5 ++ (List.range 8).flatMap (charRowT 1)
  spriteGfx := spriteRowT 0 14 ++ spriteRowT 0 15 ++ spriteRowT 1 0 ++ spriteRowT 2 0 ++ spriteRowT 2 15 ++ spriteRowT 7 4
  hostAddressMap := []

/-- Configuration T with a 63-byte COLOR_PROM. -/
def boardShort : Board := { boardT with colorProm := ⟨63, colorPromT⟩ }

/-- Start state S0, video and flip off. -/
def s0 : State := { State.reset with board := boardT, videoEnable := false, flipScreen := false }

/-- S0 after PLD. -/
def sPld : State := { s0 with base := baseBank boardT, pen := derivePalette boardT, penValid := true }

/-- S0 after PLD and VEN 1. -/
def sOn : State := { sPld with videoEnable := true }

/-- The poison value 511 in the first w pixels of row y. -/
def poison (y w : Nat) : Buffer := [(y, (List.range w).map (fun x => (x, 511#9)))]

/-- The pens of a row, from x on. -/
def rowPens (s : State) (x y n : Nat) : List Pen := (List.range n).map (fun k => s.pixel (x + k) y)

/-- The next state of an outcome satisfies a check. -/
def nextIs (o : Host.Outcome State Fault Refusal) (check : State → Bool) : Bool :=
  match o with
  | .next t => check t
  | .fault _ => false
  | .refused _ => false

/-- The step of a state with the word w issued. -/
def stepWord (s : State) (w : Nat) : Host.Outcome State Fault Refusal := step (s.withFetchWord 40 w)

/-! ## Palette: V-PAL -/

/-- Rows of V-PAL-1: one bit of each channel, all of them, and the two mixed rows. -/
theorem test_color_bits :
    colorOf 0x00#8 0x01#8 = ⟨0#8, 0#8, 0#8⟩ ∧ colorOf 0x00#8 0x02#8 = ⟨25#8, 0#8, 0#8⟩ ∧
      colorOf 0x00#8 0x20#8 = ⟨77#8, 0#8, 0#8⟩ ∧ colorOf 0x00#8 0x40#8 = ⟨0#8, 25#8, 0#8⟩ ∧
      colorOf 0x01#8 0x00#8 = ⟨0#8, 53#8, 0#8⟩ ∧ colorOf 0x08#8 0x00#8 = ⟨0#8, 0#8, 25#8⟩ ∧
      colorOf 0x80#8 0x00#8 = ⟨0#8, 0#8, 77#8⟩ ∧ colorOf 0xFF#8 0xFF#8 = ⟨255#8, 255#8, 255#8⟩ ∧
      colorOf 0x00#8 0x2A#8 = ⟨155#8, 0#8, 0#8⟩ ∧ colorOf 0x03#8 0xE3#8 = ⟨102#8, 178#8, 0#8⟩ := by decide

/-- R70: entry 3 of each sub-bank under the two layouts, from COLOR_PROM_T[j] = 7j + 3 at j = 3, 35 and j = 6, 7. -/
theorem test_sub_banks :
    subBank0 boardT 3 = 24#8 ∧ subBank1 boardT 3 = 248#8 ∧ subBank0 { boardT with promLayout := .interleaved } 3 = 45#8 ∧
      subBank1 { boardT with promLayout := .interleaved } 3 = 52#8 := by decide +kernel

/-- V-PAL-2: base colours and pens after PLD. -/
theorem test_pld :
    nextIs (exec .pld s0) (fun t =>
      t.penValid && t.baseColor 0 == ⟨102#8, 178#8, 0#8⟩ && t.baseColor 31 == ⟨230#8, 113#8, 202#8⟩ &&
        t.penColor 0 == ⟨142#8, 89#8, 178#8⟩ && t.penColor 127 == ⟨138#8, 230#8, 141#8⟩ &&
        t.penColor 128 == ⟨155#8, 125#8, 25#8⟩ && t.penColor 383 == ⟨202#8, 194#8, 100#8⟩) = true := by decide +kernel

/-- V-FLT: a 63-byte COLOR_PROM. -/
theorem test_pld_short :
    nextIs (exec .pld { s0 with board := boardShort }) (fun t =>
      t.responses == [.fault (.configuration (some 63) none)] && !t.penValid && t.faultMark) = true := by decide +kernel

/-- Program P1: the responses to PRD 0 and PRD 383. -/
theorem test_prd :
    nextIs (stepWord sPld 0x0200000000) (fun t => t.responses == [.pen 0x8E59B2#24]) = true ∧
      nextIs (stepWord sPld 0x020000017F) (fun t => t.responses == [.pen 0xCAC264#24]) = true := by decide +kernel

/-- V-FLT: PRD 0 and PRD 384 on S0; the address is checked first. -/
theorem test_prd_faults :
    nextIs (stepWord s0 0x0200000000) (fun t => t.responses == [.fault .paletteNotBuilt]) = true ∧
      nextIs (stepWord s0 0x0200000180) (fun t => t.responses == [.fault (.addressing .PT 384)]) = true := by
  decide +kernel

/-! ## Tile decode: S1, S2 and V-DEC -/

theorem test_decode_tile_A :
    decodeA 0x00#8 0x00#8 = ⟨0, 0, false, false, .below⟩ ∧ decodeA 0x00#8 0x30#8 = ⟨256, 16, false, false, .above⟩ ∧
      decodeA 0x12#8 0x40#8 = ⟨18, 0, true, false, .below⟩ ∧ decodeA 0x12#8 0x80#8 = ⟨18, 0, false, true, .below⟩ ∧
      decodeA 0x12#8 0xE5#8 = ⟨274, 5, true, true, .below⟩ ∧ decodeA 0xFF#8 0xFF#8 = ⟨511, 31, true, true, .above⟩ := by
  decide

theorem test_decode_tile_B :
    decodeB 0x12#8 0x1F#8 = ⟨18, 31, false, false, .below⟩ ∧ decodeB 0x12#8 0x40#8 = ⟨530, 0, false, false, .below⟩ ∧
      decodeB 0x12#8 0x80#8 = ⟨18, 0, false, false, .above⟩ ∧ decodeB 0x12#8 0xE5#8 = ⟨786, 5, false, false, .above⟩ ∧
      decodeB 0xFF#8 0xFF#8 = ⟨1023, 31, false, false, .above⟩ := by decide

/-! ## Tilemap: V-TM -/

/-- Tile 0 of V-TM-1: code 1 and attribute 0xC2, both flips, group 2, category 0; row 0 is poison up to X = 8. -/
def sTile : State := { sPld with tileCode := [(0, 1#8)], tileAttr := [(0, 0xC2#8)], fb := poison 0 9 }

/-- V-TM-1: rows 0 and 1 of the flipped tile; FB(8, 0) and dirty[1] stay. -/
theorem test_tmd_flips :
    nextIs (exec (.tmd .below ⟨0#8, 7#8, 0#8, 7#8⟩) sTile) (fun t =>
      rowPens t 0 0 9 == [10#9, 9#9, 8#9, 11#9, 10#9, 9#9, 8#9, 11#9, 511#9] &&
        rowPens t 0 1 8 == [8#9, 11#9, 10#9, 9#9, 8#9, 11#9, 10#9, 9#9] && !t.isDirty 0 && t.isDirty 1) = true := by
  decide +kernel

/-- V-TM-2: a clip that cuts two tiles. -/
theorem test_tmd_clip :
    nextIs (exec (.tmd .below ⟨3#8, 10#8, 5#8, 5#8⟩) { sPld with fb := poison 4 13 ++ poison 5 13 }) (fun t =>
      rowPens t 0 5 13 ==
          [511#9, 511#9, 511#9, 1#9, 2#9, 3#9, 0#9, 1#9, 2#9, 3#9, 0#9, 511#9, 511#9] &&
        rowPens t 3 4 2 == [511#9, 511#9] && !t.isDirty 0 && !t.isDirty 1 && t.isDirty 2) = true := by decide +kernel

/-- V-TM-3 and V-TM-4 on one tile: an inverted clip does nothing; the other category only refreshes. -/
theorem test_tmd_nothing_drawn :
    nextIs (exec (.tmd .below ⟨10#8, 3#8, 0#8, 255#8⟩) sTile) (fun t =>
      decide (t.fb = sTile.fb) && decide (t.dirty = [])) = true ∧
      nextIs (exec (.tmd .above ⟨0#8, 7#8, 0#8, 7#8⟩) sTile) (fun t =>
        decide (t.fb = sTile.fb) && decide (t.dirty = [(0, false)])) = true := by decide +kernel

/-- V-TM-5: writing the value already there sets the dirty bit; V-FLT: the last offset completes. -/
theorem test_twa_marks_dirty :
    nextIs (exec (.twa 5 0x00#8) { sPld with dirty := [(5, false)] }) (fun t =>
      t.isDirty 5 && decide (t.tileAttr = [])) = true ∧
      nextIs (exec (.twc 0x3ff 0xAA#8) s0) (fun t => t.readTC 1023 == 0xAA#8 && decide (t.tileAttr = [])) = true := by
  decide +kernel

/-- V-FLT and P4: the offsets past the end. -/
theorem test_tile_write_faults :
    nextIs (stepWord s0 0x1000040055) (fun t => t.responses == [.fault (.addressing .TC 1024)]) = true ∧
      nextIs (stepWord s0 0x1100FFFF00) (fun t => t.responses == [.fault (.addressing .TA 65535)]) = true := by
  decide +kernel

/-- V-TM-6: the places of tiles 586 and 1023. -/
theorem test_tile_places :
    tileCol 586 = 10 ∧ tileRow 586 = 18 ∧ tileCol 1023 = 31 ∧ tileRow 1023 = 31 ∧ tileCovering 80 144 = 586 := by decide

/-! ## Sprites: S3 and V-SPR -/

/-- V-SPR-1 (S3 with the corrected 141). -/
theorem test_resolve_sprite :
    resolveSprite 0x50#8 0x07#8 0x00#8 0x64#8 = ⟨80, 141, 7, 0, true, false⟩ ∧
      resolveSprite 0xFF#8 0xFF#8 0xFF#8 0xFF#8 = ⟨255, -14, 255, 63, false, true⟩ ∧
      resolveSprite 0x10#8 0x20#8 0x80#8 0xF2#8 = ⟨16, -1, 32, 0, true, true⟩ := by decide

/-- Slots 0x3e and 0x10 of V-SPR-3, at the same place. -/
def sTwo : State :=
  { sPld with
    sprPrimary := [(0x10, 0x64#8), (0x11, 0x02#8), (0x3e, 0x64#8), (0x3f, 0x01#8)]
    sprSecondary := [(0x10, 0x42#8), (0x11, 0x8D#8), (0x3e, 0x41#8), (0x3f, 0x8D#8)] }

/-- V-SPR-3: the lower slot wins, and its transparent pixel shows the other. -/
theorem test_spd_order :
    nextIs (exec (.spd ⟨100#8, 115#8, 100#8, 100#8⟩) sTwo) (fun t =>
      rowPens t 100 100 5 == [138#9, 139#9, 135#9, 137#9, 138#9] && t.isDirty 0) = true := by decide +kernel

/-- V-SPR-2: a sprite cut by the right and the top edge does not wrap. -/
theorem test_spd_edges :
    nextIs
      (exec (.spd ⟨0#8, 255#8, 0#8, 1#8⟩)
        { sPld with
          sprPrimary := [(0x10, 0xFA#8)]
          sprSecondary := [(0x10, 0x40#8), (0x11, 0xFF#8)] })
      (fun t =>
        rowPens t 248 0 8 == [0#9, 0#9, 0#9, 129#9, 130#9, 131#9, 0#9, 129#9] &&
          rowPens t 248 1 8 == [0#9, 0#9, 130#9, 131#9, 0#9, 129#9, 130#9, 131#9] &&
          rowPens t 0 0 4 == [0#9, 0#9, 0#9, 0#9]) = true := by decide +kernel

/-- V-FLT: SWS 0 completes, SWS 0x40 and SWP 0x40 fault. -/
theorem test_sprite_writes :
    nextIs (exec (.sws 0x00 0xFF#8) s0) (fun t => t.readSS 0 == 0xFF#8) = true ∧
      nextIs (exec (.swp 0x3f 0x11#8) s0) (fun t => t.readSP 0x3f == 0x11#8) = true ∧
      nextIs (stepWord s0 0x2100004001) (fun t => t.responses == [.fault (.addressing .SS 64)]) = true ∧
      nextIs (stepWord s0 0x2000004000) (fun t => t.responses == [.fault (.addressing .SP 64)]) = true := by
  decide +kernel

/-! ## Frame: V-FRM and the rows of program P2 -/

/-- V-FRM-1: video disabled. -/
theorem test_rfr_gate : exec (.rfr ⟨0#8, 255#8, 0#8, 255#8⟩) sPld = .next sPld := rfl

/-- V-FLT: RFR before PLD, although video is disabled. -/
theorem test_rfr_no_palette :
    nextIs (exec (.rfr ⟨0#8, 255#8, 0#8, 255#8⟩) s0) (fun t => t.responses == [.fault .paletteNotBuilt]) = true := by
  decide +kernel

/-- The sprites and the category 1 tile of program P2, in configuration T. -/
def sP2 : State :=
  { sOn with
    tileAttr := [(0x24a, 0x10#8)]
    sprPrimary := [(0x10, 0x50#8), (0x11, 0x07#8), (0x12, 0x58#8), (0x13, 0x02#8)]
    sprSecondary := [(0x11, 0x64#8), (0x12, 0xC5#8), (0x13, 0x60#8)] }

/-- Program P2, row 145: the tile of category 1 over the sprites, and the lower slot over the higher. -/
theorem test_rfr_mux :
    nextIs (exec (.rfr ⟨80#8, 103#8, 145#8, 145#8⟩) sP2) (fun t =>
      rowPens t 80 145 24 ==
        [66#9, 67#9, 64#9, 65#9, 66#9, 67#9, 64#9, 65#9, 130#9, 129#9, 150#9, 131#9, 130#9, 129#9, 150#9, 131#9,
         2#9, 149#9, 150#9, 151#9, 2#9, 149#9, 150#9, 151#9]) = true := by decide +kernel

/-- VEN and FLP latch. -/
theorem test_latches :
    nextIs (stepWord s0 0x3000000001) (fun t => t.videoEnable && !t.flipScreen) = true ∧
      nextIs (stepWord s0 0x3100000001) (fun t => t.flipScreen && !t.videoEnable) = true := by decide +kernel

/-- RSL asks the oracle, whatever it answers. -/
theorem test_rsl : stepWord s0 0x3200000000 =
    .next { s0 with responses := [.scanline (Config.scanline 0)], scanDraws := 1 } := rfl

/-- P4: an illegal word is the response, and nothing else changes. -/
theorem test_illegal_word :
    stepWord s0 0x3000000003 =
      .next { s0 with responses := [.fault (.illegalCommand 0x3000000003#40)], faultMark := true } := rfl

/-! ## Witnesses: a state and operands that meet the hypotheses of each obligation -/

theorem test_meets_DecodeOfEncodeIsTheInstruction :
    (Instr.twc 65535 0xff#8).wellFormed = true ∧ (Instr.tmd .above ⟨255#8, 0#8, 255#8, 0#8⟩).wellFormed = true := by
  decide

theorem test_meets_DecodedWordEncodesBack : decode 0x020000FFFF#40 = .command (.prd 65535) := by decide

theorem test_meets_MatchAndMaskDecide :
    decode 0x110003FFFF#40 = .command (.twa 0x3ff 0xff#8) ∧ (Instr.tmd .below ⟨0, 0, 0, 0⟩).row ∈ opcodeTable ∧
      (Instr.tmd .below ⟨0, 0, 0, 0⟩).row.selects 0x4300FF00FF#40 = true ∧
      (∀ r ∈ opcodeTable, r.selects 0x0200010000#40 = false) := by decide

theorem test_meets_AssemblerExpandsPseudoInstructions :
    ((65535 : Nat) ≤ 65535 ∧ (255 : Nat) ≤ 255) ∧ (0x3e % 2 = 0 ∧ 0x10 ≤ 0x3e ∧ 0x3e ≤ 0x3e) ∧
      ¬(0x40 % 2 = 0 ∧ 0x10 ≤ 0x40 ∧ 0x40 ≤ 0x3e) ∧ ¬(0x0e % 2 = 0 ∧ 0x10 ≤ 0x0e ∧ 0x0e ≤ 0x3e) ∧
      assembleCommand "SPRITE".toList [0x11, 0, 0, 0, 0] = none := by decide

/-- A state with a legal and an illegal word waiting. -/
def sWaiting : State := { sOn with pending := [0x3000000000#40, 0x4100000000#40] }

/-- A state whose next word is illegal. -/
def sIllegal : State := { sOn with pending := [0x4100000000#40, 0x3000000000#40] }

theorem test_meets_StepRunsTheDecodedCommand :
    sWaiting.pending = 0x3000000000#40 :: [0x4100000000#40] ∧ decode 0x3000000000#40 = .command (.ven false) := by decide

theorem test_meets_IllegalWordFaultsAndChangesNothing :
    (sIllegal.pending = 0x4100000000#40 :: [0x3000000000#40] ∧
        decode 0x4100000000#40 = .illegal (.unknownOpcode 0x41#8)) ∧
      exec (.ven false) s0 = .next s0 := ⟨by decide, rfl⟩

theorem test_meets_NoCommandNoChange : s0.pending = [] := rfl

theorem test_meets_SteadyStateHasNoFaults :
    sPld.penValid = true ∧ (∀ i ∈ [Instr.prd 383, .twc 1023 0#8, .twa 1023 0#8, .swp 63 0#8, .sws 63 0#8],
      i ≠ .pld ∧ indexInSpace i = true) := by decide

theorem test_meets_OutOfRangeIndexFaults :
    (1023 : Nat) < 1024 ∧ (63 : Nat) < 64 ∧ (383 : Nat) < 384 ∧ exec (.spd ⟨1#8, 0#8, 0#8, 0#8⟩) s0 =
      .next (s0.takeFault .paletteNotBuilt) := ⟨by decide, by decide, by decide, rfl⟩

theorem test_meets_DrawBeforePaletteFaults : s0.penValid = false ∧ (383 : Nat) ≤ 383 := by decide

theorem test_meets_WrongPromSizeFaults :
    ¬(boardShort.colorProm.size = 64 ∧ boardShort.lookup.size = 384) ∧ Instr.rsl ≠ .pld ∧
      exec (.flp false) s0 = .next s0 := ⟨by decide, by decide, rfl⟩

theorem test_meets_FaultMarkIsSticky :
    step sIllegal =
      .next { sOn with
        pending := [0x3000000000#40]
        responses := [.fault (.illegalCommand 0x4100000000#40)]
        faultMark := true } := rfl

/-- A running state with one clean tile, whose record is cached. -/
def sRun : State :=
  { sOn with
    tileCode := [(0, 1#8)]
    tileAttr := [(0, 0xC2#8)]
    dirty := [(0, false)]
    cache := [(0, ⟨1, 2, true, true, .below⟩)]
    pending := [0x3000000000#40] }

theorem test_all_dirty_coherent {s : State} (h : s.dirty = []) : s.CacheCoherent := by
  intro t _ hd
  simp [State.isDirty, h] at hd

theorem test_sRun_coherent : sRun.CacheCoherent := by
  intro t ht hd
  by_cases h : t = 0
  · subst h
    rfl
  · simp [State.isDirty, sRun, Store.read, Store.find?, h] at hd

theorem test_sRun_inv : sRun.Inv where
  memory := ⟨rfl, rfl, rfl, rfl, rfl, rfl, rfl⟩
  tables := ⟨by decide +kernel, by decide +kernel⟩
  palette := fun _ => ⟨rfl, rfl⟩
  cache := test_sRun_coherent
  mark := rfl

/-- sRun after a reload of the PROMs, with PLD issued: PEN is stale until that PLD (20_memory.md R65). -/
def sReloaded : State :=
  { sRun with board := { boardT with colorProm := ⟨64, [(0, 0xFF#8)]⟩ }, pending := [0x0100000000#40] }

theorem test_sReloaded_inv : sReloaded.InvFrom boardT where
  memory := ⟨rfl, rfl, rfl, rfl, rfl, rfl, rfl⟩
  tables := ⟨by decide +kernel, by decide +kernel⟩
  palette := fun _ => ⟨rfl, rfl⟩
  cache := by
    intro t _ hd
    by_cases h : t = 0
    · subst h
      rfl
    · simp [State.isDirty, sReloaded, sRun, Store.read, Store.find?, h] at hd
  mark := rfl

/-- The last PLD is that of boardT until the step that completes a PLD on the new board. -/
theorem test_last_pld :
    sRun.lastPld boardT = boardT ∧ sReloaded.lastPld boardT = sReloaded.board ∧ sReloaded.board ≠ boardT :=
  ⟨rfl, rfl, fun h => absurd (congrArg (fun b => b.colorProm.named.length) h) (by decide +kernel)⟩

theorem test_meets_EveryStepKeepsTheInvariant :
    (sRun.Inv ∧ step sRun = .next { sRun with pending := [], videoEnable := false }) ∧
      (sReloaded.InvFrom boardT ∧ step sReloaded = .next (State.buildPalette { sReloaded with pending := [] })) :=
  ⟨⟨test_sRun_inv, rfl⟩, test_sReloaded_inv, rfl⟩

theorem test_meets_EveryAllowedResetMeetsTheInvariant :
    State.AfterReset { s0 with fb := poison 0 9, videoEnable := true, cache := [(7, ⟨1, 2, true, true, .below⟩)] } where
  penValid := rfl
  dirty := rfl
  responses := rfl
  faultMark := rfl
  memory := ⟨rfl, rfl, rfl, by decide, rfl, rfl, by decide +kernel⟩
  tables := ⟨by decide +kernel, by decide +kernel⟩

theorem test_meets_NoCommandWritesTheBoard :
    step sWaiting = .next { sWaiting with pending := [0x4100000000#40], videoEnable := false } ∧
      sWaiting.penValid = true ∧ boardT.hostAddressMap ≠ [(0x5000, .videoEnable)] := ⟨rfl, rfl, by decide⟩

theorem test_meets_PldBuildsThePenTable :
    (s0.board.colorProm.size = 64 ∧ s0.board.lookup.size = 384) ∧ s0.board.promLayout = .contiguous ∧
      { boardT with promLayout := .interleaved }.promLayout ≠ .contiguous ∧ (31 : Nat) < 32 ∧ (127 : Nat) ≤ 127 ∧
      (128 : Nat) ≤ 383 := by decide

theorem test_meets_PldIsIdempotent : sPld.board.colorProm.size = 64 ∧ sPld.board.lookup.size = 384 := by decide

/-- A board that names one byte of each PROM: SB1(0) and LOOKUP[0]. -/
def boardNaming (sb1 lk : Byte) : Board := { boardT with colorProm := ⟨64, [(32, sb1)]⟩, lookup := ⟨384, [(0, lk)]⟩ }

/-- Two boards that differ in unused bits alone, as in V-PAL-4: bit 0 of a sub-bank 1 byte, bits 7..4 of a lookup byte. -/
theorem test_meets_PaletteIgnoresUnusedBits :
    boardNaming 0xE3#8 0x01#8 ≠ boardNaming 0xE2#8 0xF1#8 ∧
      (∀ i, i < 32 → subBank0 (boardNaming 0xE3#8 0x01#8) i = subBank0 (boardNaming 0xE2#8 0xF1#8) i) ∧
      (∀ i, i < 32 → (subBank1 (boardNaming 0xE3#8 0x01#8) i).toNat / 2 =
        (subBank1 (boardNaming 0xE2#8 0xF1#8) i).toNat / 2) ∧
      (∀ k, k < 384 → ((boardNaming 0xE3#8 0x01#8).readLK k).toNat % 16 =
        ((boardNaming 0xE2#8 0xF1#8).readLK k).toNat % 16) := by
  refine ⟨fun h => absurd (congrArg (fun b => b.lookup.named) h) (by decide), fun i hi => ?_, fun i _ => ?_, fun k _ => ?_⟩
  · have : i ≠ 32 := by omega
    simp [subBank0, boardNaming, boardT, Board.readCP, Store.find?, this]
  · by_cases h : i = 0
    · subst h
      decide
    · simp [subBank1, boardNaming, boardT, Board.readCP, Store.find?, h]
  · by_cases h : k = 0
    · subst h
      decide
    · simp [boardNaming, Board.readLK, Store.find?, h]

theorem test_meets_OneBitMovesOneChannel :
    (∀ k w : Nat, (k, w) ∈ [(1, 25), (5, 77), (6, 25), (7, 36)] → (0x01#8).getLsbD k = false) ∧
      (∀ k w : Nat, (k, w) ∈ [(0, 53), (2, 77), (3, 25), (7, 77)] → (0x00#8).getLsbD k = false) := by
  constructor <;> intro k w h <;> simp at h <;> rcases h with h | h | h | h <;> simp [h.1]

theorem test_meets_PrdRespondsWithThePen :
    ((383 : Nat) ≤ 383 ∧ sPld.penValid = true) ∧ (383 : Nat) < 384 ∧ (0 : Nat) ≤ 383 ∧ s0.penValid = false := by decide

theorem test_meets_PromReloadLeavesPenStale :
    ((383 : Nat) ≤ 383 ∧ sPld.penValid = true) ∧ (boardNaming 0#8 0#8).colorProm.size = 64 ∧
      (boardNaming 0#8 0#8).lookup.size = 384 := by
  decide

theorem test_meets_TwcStoresAndMarksDirty :
    exec (.twc 1023 0x55#8) s0 = .next { s0 with tileCode := [(1023, 0x55#8)] } ∧
      exec (.twc 1024 0x55#8) s0 = .next (s0.takeFault (.addressing .TC 1024)) := ⟨rfl, rfl⟩

theorem test_meets_TwaStoresAndMarksDirty :
    exec (.twa 1023 0x55#8) s0 = .next { s0 with tileAttr := [(1023, 0x55#8)] } ∧
      exec (.twa 1024 0x55#8) s0 = .next (s0.takeFault (.addressing .TA 1024)) := ⟨rfl, rfl⟩

theorem test_meets_SwpStoresOneByte :
    exec (.swp 63 0x55#8) s0 = .next { s0 with sprPrimary := [(63, 0x55#8)] } ∧
      exec (.swp 64 0x55#8) s0 = .next (s0.takeFault (.addressing .SP 64)) := ⟨rfl, rfl⟩

theorem test_meets_SwsStoresOneByte :
    exec (.sws 63 0x55#8) s0 = .next { s0 with sprSecondary := [(63, 0x55#8)] } ∧
      exec (.sws 64 0x55#8) s0 = .next (s0.takeFault (.addressing .SS 64)) := ⟨rfl, rfl⟩

theorem test_meets_TilePenMirrorsAndSelectsTheGroup :
    (7 : Nat) ≤ 7 ∧ (sTile.tileAt 0).colorGroup ≤ 31 ∧ (sTile.tileAt 0).flipX = true ∧
      tilePen boardT (sTile.tileAt 0) 0 0 = 10 := by decide +kernel

theorem test_meets_TilesPartitionTheBuffer :
    (8 * tileCol 1023 ≤ 255 ∧ 255 ≤ 8 * tileCol 1023 + 7) ∧ (8 * tileRow 1023 ≤ 255 ∧ 255 ≤ 8 * tileRow 1023 + 7) := by
  decide

theorem test_meets_TileMeetsWhenSomePixelIsInside :
    (⟨10#8, 3#8, 0#8, 255#8⟩ : Clip).maxX.toNat < (⟨10#8, 3#8, 0#8, 255#8⟩ : Clip).minX.toNat ∧
      tileMeets 0 ⟨10#8, 3#8, 0#8, 255#8⟩ = false ∧ tileMeets 1023 ⟨255#8, 255#8, 255#8, 255#8⟩ = true ∧
      insideClip ⟨255#8, 255#8, 255#8, 255#8⟩ (8 * tileCol 1023 + 7) (8 * tileRow 1023 + 7) = true := by decide

/-- V-TM-3: with an inverted clip the draws do nothing, with or without a built palette. -/
theorem test_meets_TileMeetsWhenSomePixelIsInside_draws :
    sPld.penValid = true ∧ nextIs (exec (.tmd .below ⟨1#8, 0#8, 0#8, 255#8⟩) sTile) (fun t =>
      decide (t.fb = sTile.fb) && decide (t.dirty = [])) = true ∧
      exec (.spd ⟨0#8, 255#8, 1#8, 0#8⟩) s0 = .next (s0.takeFault .paletteNotBuilt) :=
  ⟨rfl, by decide +kernel, rfl⟩

theorem test_meets_TmdCleansMeetingTilesOnly :
    sTile.penValid = true ∧ (1023 : Nat) < 1024 ∧ insideClip ⟨0#8, 7#8, 0#8, 7#8⟩ 8 0 = false := by decide

theorem test_meets_TmdDrawsTilesOfTheCategory : sRun.penValid = true ∧ sRun.CacheCoherent := ⟨rfl, test_sRun_coherent⟩

theorem test_meets_BothPassesCoverTheClip : sRun.penValid = true ∧ sRun.CacheCoherent := ⟨rfl, test_sRun_coherent⟩

theorem test_meets_DirtyTrackingEquivalence : sRun.CacheCoherent ∧ sRun.isDirty 0 = false := ⟨test_sRun_coherent, rfl⟩

/-- V-SPR-3 at (102, 100): slot 0x3e shows value 3 through the transparent pixel of slot 0x10. -/
theorem test_meets_SpdLowestOpaqueSlotWins :
    sTwo.penValid = true ∧ insideClip ⟨100#8, 115#8, 100#8, 100#8⟩ 102 100 = true ∧ 0x3e ∈ spriteSlots ∧
      sTwo.spriteAt 0x3e = ⟨100, 100, 1, 1, false, false⟩ ∧ boardT.spritePixel 1 2 0 = 3#2 ∧
      (∀ o' ∈ spriteSlots, o' < 0x3e → sTwo.spriteShows o' 102 100 = none) ∧
      (∀ o ∈ spriteSlots, sTwo.spriteShows o 100 99 = none) ∧
      insideClip ⟨100#8, 115#8, 99#8, 100#8⟩ 100 99 = true ∧
      insideClip ⟨100#8, 115#8, 100#8, 100#8⟩ 100 99 = false := by decide +kernel

theorem test_meets_LowSpriteOffsetsAreNeverRead :
    (0x0f : Nat) < 0x10 ∧ ∀ i ∈ [Instr.tmd .above ⟨0#8, 7#8, 0#8, 7#8⟩, .spd ⟨0#8, 7#8, 0#8, 7#8⟩,
      .rfr ⟨0#8, 7#8, 0#8, 7#8⟩], i = .tmd .above ⟨0#8, 7#8, 0#8, 7#8⟩ ∨ i = .spd ⟨0#8, 7#8, 0#8, 7#8⟩ ∨
        i = .rfr ⟨0#8, 7#8, 0#8, 7#8⟩ := by decide

theorem test_meets_DisabledFrameWritesNothing : sPld.penValid = true ∧ sPld.videoEnable = false := ⟨rfl, rfl⟩

theorem test_meets_FrameIsThreePassesInOrder :
    s0.penValid = false ∧ (sPld.penValid = true ∧ sPld.videoEnable = false) ∧ sOn.penValid = true ∧
      sOn.videoEnable = true := ⟨rfl, ⟨rfl, rfl⟩, rfl, rfl⟩

theorem test_meets_FrameIsThePriorityMux : sRun.penValid = true ∧ sRun.videoEnable = true ∧ sRun.CacheCoherent :=
  ⟨rfl, rfl, test_sRun_coherent⟩

theorem test_sP2_coherent : sP2.CacheCoherent := test_all_dirty_coherent rfl

/-- In program P2's state pixel (88, 145) gets a sprite pen. -/
theorem test_meets_SpritePensOnlyOverCategoryZero :
    (sP2.penValid = true ∧ sP2.videoEnable = true ∧ sP2.CacheCoherent) ∧
      insideClip ⟨80#8, 103#8, 145#8, 145#8⟩ 88 145 = true ∧
      nextIs (exec (.rfr ⟨88#8, 88#8, 145#8, 145#8⟩) sP2) (fun t => decide (128 ≤ (t.pixel 88 145).toNat)) = true :=
  ⟨⟨rfl, rfl, test_sP2_coherent⟩, by decide, by decide +kernel⟩

theorem test_meets_FrameIsReproducible :
    (sRun.InvFrom boardT ∧ sRun.penValid = true ∧ sRun.videoEnable = true) ∧
      (∀ i ∈ [Instr.ven false, .prd 384, .rsl, .ven true], isWrite i = false) ∧
      execAll [.ven false, .prd 384, .rsl, .ven true] sRun =
        .next { sRun with
          responses := [.fault (.addressing .PT 384), .scanline (Config.scanline 0)]
          faultMark := true
          scanDraws := 1 } := ⟨⟨test_sRun_inv, rfl, rfl⟩, by decide, rfl⟩

/-- sRun with other PROMs, another buffer, no clean tile, and another history. -/
def sRunOther : State :=
  { sRun with
    board := { boardT with promLayout := .interleaved, colorProm := ⟨64, []⟩, lookup := ⟨384, [(0, 0#8)]⟩ }
    fb := poison 0 9
    dirty := []
    cache := []
    responses := [.scanline 7#8]
    flipScreen := true }

theorem test_sRunOther_coherent : sRunOther.CacheCoherent := test_all_dirty_coherent rfl

theorem test_meets_FrameForgetsThePreviousBuffer :
    sRun ≠ sRunOther ∧ (sRun.penValid = true ∧ sRunOther.penValid = true) ∧
      (sRun.videoEnable = true ∧ sRunOther.videoEnable = true) ∧ (sRun.CacheCoherent ∧ sRunOther.CacheCoherent) ∧
      sRunOther.board ≠ sRun.board ∧ (sRunOther.board.variant = sRun.board.variant ∧
        sRunOther.board.spriteW = sRun.board.spriteW ∧ sRunOther.board.spriteH = sRun.board.spriteH ∧
        sRunOther.board.charGfx = sRun.board.charGfx ∧ sRunOther.board.spriteGfx = sRun.board.spriteGfx) ∧
      sRunOther.tileCode = sRun.tileCode ∧ sRunOther.tileAttr = sRun.tileAttr ∧
      sRunOther.sprPrimary = sRun.sprPrimary ∧ sRunOther.sprSecondary = sRun.sprSecondary :=
  ⟨fun h => absurd (congrArg State.dirty h) (by decide), ⟨rfl, rfl⟩, ⟨rfl, rfl⟩,
    ⟨test_sRun_coherent, test_sRunOther_coherent⟩, fun h => absurd (congrArg Board.promLayout h) (by decide),
    ⟨rfl, rfl, rfl, rfl, rfl⟩, rfl, rfl, rfl, rfl⟩

theorem test_meets_DrawsWriteOnlyTheirPens :
    sRun.CacheCoherent ∧ exec (.tmd .below ⟨0#8, 7#8, 0#8, 7#8⟩) sRun = .next (drawTilemap .below ⟨0#8, 7#8, 0#8, 7#8⟩ sRun) ∧
      exec (.spd ⟨0#8, 7#8, 0#8, 7#8⟩) sRun = .next (drawSprites ⟨0#8, 7#8, 0#8, 7#8⟩ sRun) ∧
      exec (.rfr ⟨0#8, 7#8, 0#8, 7#8⟩) sRun = .next (renderFrame ⟨0#8, 7#8, 0#8, 7#8⟩ sRun) :=
  ⟨test_sRun_coherent, rfl, rfl, rfl⟩

theorem test_meets_OnlyDrawsWriteTheBuffer :
    (exec (.ven true) sRun = .next sRun ∧ (∀ cat c, Instr.ven true ≠ .tmd cat c) ∧ (∀ c, Instr.ven true ≠ .spd c) ∧
      (∀ c, Instr.ven true ≠ .rfr c) ∧ (∀ off val, Instr.ven true ≠ .twc off val) ∧
      (∀ off val, Instr.ven true ≠ .twa off val) ∧ (∀ off val, Instr.ven true ≠ .swp off val) ∧
      (∀ off val, Instr.ven true ≠ .sws off val) ∧ (∀ f, Instr.ven true ≠ .flp f) ∧ Instr.ven true ≠ .pld) ∧
      (exec (.spd ⟨0#8, 7#8, 0#8, 7#8⟩) sRun = .next (drawSprites ⟨0#8, 7#8, 0#8, 7#8⟩ sRun) ∧
        ∀ f, Instr.spd ⟨0#8, 7#8, 0#8, 7#8⟩ ≠ .ven f) :=
  ⟨⟨rfl, by simp, by simp, by simp, by simp, by simp, by simp, by simp, by simp, by simp⟩, rfl, by simp⟩

theorem test_meets_CommandsRunInOrderOfIssue : sWaiting.pending ≠ [] := by decide

end Sys2Proof.Tests
end

section
/-!
SUPPORT. What one command can do, said once: it ends in the fault its checks find, or it has its effect.
-/

namespace Sys2Proof.Machine

/-! ## The checks -/

/-- The fault of a command that needs the palette (60_exceptions.md R203). -/
def State.paletteFault (s : State) : Option Fault := if s.penValid then none else some .paletteNotBuilt

/-- The fault of an index operand outside its space (60_exceptions.md R201). -/
def spaceFault (space : Space) (size index : Nat) : Option Fault :=
  if index < size then none else some (.addressing space index)

/-- The fault of PLD on PROMs of a wrong size (60_exceptions.md R202). -/
def Board.sizeFault (b : Board) : Option Fault :=
  if b.promsSized then none
  else some (.configuration (wrongLength 64 b.colorProm.size) (wrongLength 384 b.lookup.size))

/-- The state a command leaves when its checks find `fault` and its effect is `t` (60_exceptions.md R205). -/
def State.faultOr (s : State) (fault : Option Fault) (t : State) : State := fault.elim t s.takeFault

@[simp] theorem State.faultOr_none (s t : State) : s.faultOr none t = t := rfl
@[simp] theorem State.faultOr_some (s t : State) (f : Fault) : s.faultOr (some f) t = s.takeFault f := rfl

theorem State.faultOr_or (s t : State) (f g : Option Fault) :
    s.faultOr (f.or g) t = s.faultOr f (s.faultOr g t) := by
  cases f <;> rfl

theorem whenPaletteBuilt_next (s t : State) :
    whenPaletteBuilt s (.next t) = .next (s.faultOr s.paletteFault t) := by
  unfold whenPaletteBuilt State.paletteFault
  split <;> rfl

theorem whenInSpace_next (space : Space) (size index : Nat) (s t : State) :
    whenInSpace space size index s (.next t) = .next (s.faultOr (spaceFault space size index) t) := by
  unfold whenInSpace spaceFault
  split <;> rfl

theorem execPld_eq (s : State) : execPld s = .next (s.faultOr s.board.sizeFault s.buildPalette) := by
  unfold execPld Board.sizeFault
  split <;> rfl

/-! ## The commands -/

/-- The fault the checks of a command find, in the order the command makes them (60_exceptions.md R201 to R203). -/
def Instr.faultIn (s : State) : Instr → Option Fault
  | .pld => s.board.sizeFault
  | .prd pen => (spaceFault .PT 384 pen).or s.paletteFault
  | .twc off _ => spaceFault .TC 1024 off
  | .twa off _ => spaceFault .TA 1024 off
  | .swp off _ => spaceFault .SP 64 off
  | .sws off _ => spaceFault .SS 64 off
  | .ven _ | .flp _ | .rsl => none
  | .rfr _ | .tmd _ _ | .spd _ => s.paletteFault

/-- The state a command leaves when its checks find no fault. -/
def Instr.effect (s : State) : Instr → State
  | .pld => s.buildPalette
  | .prd pen => s.respond (.pen (rgbWord (s.penColor pen)))
  | .twc off val => (s.writeTC off val).markDirty off
  | .twa off val => (s.writeTA off val).markDirty off
  | .swp off val => s.writeSP off val
  | .sws off val => s.writeSS off val
  | .ven f => s.setVideoEnable f
  | .flp f => s.setFlipScreen f
  | .rsl => (s.respond (.scanline s.scanline)).countScanline
  | .rfr c => if s.videoEnable then renderFrame c s else s
  | .tmd cat c => drawTilemap cat c s
  | .spd c => drawSprites c s

/-- Every command answers a next state: the fault its checks find, or its effect (60_exceptions.md R205). -/
theorem exec_eq (i : Instr) (s : State) : exec i s = .next (s.faultOr (Instr.faultIn s i) (Instr.effect s i)) := by
  cases i with
  | pld => exact execPld_eq s
  | prd pen =>
    simp only [exec, execPrd, whenPaletteBuilt_next, whenInSpace_next, Instr.faultIn, Instr.effect, State.faultOr_or]
  | twc off val => exact whenInSpace_next ..
  | twa off val => exact whenInSpace_next ..
  | swp off val => exact whenInSpace_next ..
  | sws off val => exact whenInSpace_next ..
  | ven f => rfl
  | flp f => rfl
  | rsl => rfl
  | rfr c => exact whenPaletteBuilt_next ..
  | tmd cat c => exact whenPaletteBuilt_next ..
  | spd c => exact whenPaletteBuilt_next ..

/-! ## One step -/

theorem step_of_pending_nil {s : State} (h : s.pending = []) : step s = .next s := by
  simp [step, State.takeCommand, h]

theorem step_of_pending_cons {s : State} {w : CommandWord} {rest : List CommandWord} (h : s.pending = w :: rest) :
    step s = runWord w { s with pending := rest } := by
  simp [step, State.takeCommand, h]

theorem runWord_of_command {w : CommandWord} {i : Instr} (h : decode w = .command i) (s : State) :
    runWord w s = exec i s := by
  simp [runWord, h]

theorem runWord_of_illegal {w : CommandWord} {why : Illegal} (h : decode w = .illegal why) (s : State) :
    runWord w s = .next (s.takeFault (.illegalCommand w)) := by
  simp [runWord, h, raise]

/-! ## The command stream -/

theorem State.faultOr_pending {s t : State} (fault : Option Fault) (h : t.pending = s.pending) :
    (s.faultOr fault t).pending = s.pending := by
  cases fault with
  | none => exact h
  | some f => exact State.takeFault_pending s f

@[simp] theorem Instr.effect_pending (s : State) (i : Instr) : (Instr.effect s i).pending = s.pending := by
  cases i with
  | rfr c =>
    simp only [Instr.effect]
    split
    · exact renderFrame_pending c s
    · rfl
  | _ => simp [Instr.effect]

/-- No word stops the machine, and none issues a command (00_scope.md R13). -/
theorem runWord_next_pending (w : CommandWord) (s : State) : ∃ t, runWord w s = .next t ∧ t.pending = s.pending := by
  cases h : decode w with
  | command i =>
    rw [runWord_of_command h, exec_eq]
    exact ⟨_, rfl, State.faultOr_pending _ (Instr.effect_pending s i)⟩
  | illegal why => exact ⟨_, runWord_of_illegal h s, State.takeFault_pending s _⟩

/-! ## The statements of 00_scope.md -/

/-- Settles O11, by whether a word is waiting. -/
theorem everyStepAnswersANextState : Obligations.EveryStepAnswersANextState := by
  intro s
  cases h : s.pending with
  | nil => exact ⟨s, step_of_pending_nil h, h⟩
  | cons w rest =>
    rw [step_of_pending_cons h]
    exact runWord_next_pending w _

/-- Settles O10: with no word to take, the step answers its own state. -/
theorem noCommandNoChange : Obligations.NoCommandNoChange := fun _ => step_of_pending_nil

end Sys2Proof.Machine
end

section
/-!
SUPPORT. What one step can do, as cases: no word, an illegal word, a command whose checks find a fault, a command with its
effect. And which effect changes which field.
-/

namespace Sys2Proof.Machine

/-! ## The checks that pass -/

theorem spaceFault_eq_none_iff {space : Space} {size index : Nat} :
    spaceFault space size index = none ↔ index < size := by
  simp [spaceFault]

theorem sizeFault_eq_none_iff {b : Board} : b.sizeFault = none ↔ b.promsSized = true := by
  simp [Board.sizeFault]

/-! ## The cases of a step -/

/-- A command ends in the fault its checks find, or in its effect (60_exceptions.md R205). -/
theorem exec_cases {i : Instr} {s t : State} (h : exec i s = .next t) :
    (∃ f, Instr.faultIn s i = some f ∧ t = s.takeFault f) ∨ (Instr.faultIn s i = none ∧ t = Instr.effect s i) := by
  rw [exec_eq, Host.Outcome.next.injEq] at h
  cases hf : Instr.faultIn s i with
  | none => exact .inr ⟨rfl, by rw [← h, hf, State.faultOr_none]⟩
  | some f => exact .inl ⟨f, rfl, by rw [← h, hf, State.faultOr_some]⟩

/-- A word is illegal and faults, or decodes to a command and runs it (60_exceptions.md R200). -/
theorem runWord_cases {w : CommandWord} {s t : State} (h : runWord w s = .next t) :
    (∃ why, decode w = .illegal why ∧ t = s.takeFault (.illegalCommand w)) ∨
    (∃ i, decode w = .command i ∧ exec i s = .next t) := by
  cases hd : decode w with
  | command i => exact .inr ⟨i, rfl, by rwa [runWord_of_command hd] at h⟩
  | illegal why =>
    rw [runWord_of_illegal hd, Host.Outcome.next.injEq] at h
    exact .inl ⟨why, rfl, h.symm⟩

/-- A step idles, or runs the oldest word on the state without it (20_memory.md R57). -/
theorem step_cases {s t : State} (h : step s = .next t) :
    (s.pending = [] ∧ t = s) ∨
    (∃ w rest, s.pending = w :: rest ∧ runWord w { s with pending := rest } = .next t) := by
  cases hp : s.pending with
  | nil =>
    rw [step_of_pending_nil hp, Host.Outcome.next.injEq] at h
    exact .inl ⟨rfl, h.symm⟩
  | cons w rest => exact .inr ⟨w, rest, rfl, by rwa [step_of_pending_cons hp] at h⟩

/-- What a fault, an effect and the taking of a word keep of the state before them, a step keeps. -/
theorem step_keeps {R : State → State → Prop} (hrefl : ∀ s, R s s)
    (hfault : ∀ s f, R s (s.takeFault f)) (heffect : ∀ s i, R s (Instr.effect s i))
    (htake : ∀ s t rest, R { s with pending := rest } t → R s t) {s t : State} (h : step s = .next t) : R s t := by
  rcases step_cases h with ⟨-, rfl⟩ | ⟨w, rest, -, hrun⟩
  · exact hrefl t
  · refine htake s t rest ?_
    rcases runWord_cases hrun with ⟨-, -, rfl⟩ | ⟨i, -, hexec⟩
    · exact hfault _ _
    · rcases exec_cases hexec with ⟨f, -, rfl⟩ | ⟨-, rfl⟩
      · exact hfault _ f
      · exact heffect _ i

/-! ## What each effect leaves unchanged -/

/-- With video disabled a frame has no effect, else that of its three passes (44_frame.md R185, R186). -/
theorem Instr.effect_rfr_cases (s : State) (c : Clip) :
    Instr.effect s (.rfr c) = s ∨ Instr.effect s (.rfr c) = renderFrame c s := by
  simp only [Instr.effect]
  split
  · exact .inr rfl
  · exact .inl rfl

@[simp] theorem Instr.effect_board (s : State) (i : Instr) : (Instr.effect s i).board = s.board := by
  cases i with
  | rfr c => rcases Instr.effect_rfr_cases s c with h | h <;> simp [h]
  | _ => simp [Instr.effect]

/-- BASE, PEN and penValid change under PLD alone. -/
theorem Instr.effect_palette {i : Instr} (h : i ≠ .pld) (s : State) :
    (Instr.effect s i).base = s.base ∧ (Instr.effect s i).pen = s.pen ∧ (Instr.effect s i).penValid = s.penValid := by
  cases i with
  | pld => exact absurd rfl h
  | rfr c => rcases Instr.effect_rfr_cases s c with h | h <;> simp [h]
  | _ => simp [Instr.effect]

/-- A built palette stays built. -/
theorem Instr.effect_penValid {s : State} (h : s.penValid = true) (i : Instr) : (Instr.effect s i).penValid = true := by
  by_cases hi : i = .pld
  · subst hi
    rfl
  · obtain ⟨-, -, hvalid⟩ := Instr.effect_palette hi s
    exact hvalid.trans h

end Sys2Proof.Machine
end

section
/-!
SUPPORT. What a draw command reads: the tiles, the 24 sprite slots, the graphics and two flags, and nothing else. A byte of a
sprite table below offset 0x10 belongs to no slot (10_state.md R29).
-/

namespace Sys2Proof.Machine

/-- The two states agree in all that a draw command reads or answers. -/
structure State.SameDraws (s t : State) : Prop where
  tiles : s.SameTiles t
  spriteW : t.board.spriteW = s.board.spriteW
  spriteH : t.board.spriteH = s.board.spriteH
  spriteGfx : t.board.spriteGfx = s.board.spriteGfx
  slots : ∀ o ∈ spriteSlots, t.spriteAt o = s.spriteAt o
  penValid : t.penValid = s.penValid
  videoEnable : t.videoEnable = s.videoEnable
  responses : t.responses = s.responses

@[simp] theorem drawSprites_spriteAt (c : Clip) (s : State) (o : Nat) : (drawSprites c s).spriteAt o = s.spriteAt o :=
  spriteAt_congr (by simp [State.readSP]) (by simp [State.readSP]) (by simp [State.readSS]) (by simp [State.readSS])

@[simp] theorem drawTilemap_spriteAt (cat : Category) (c : Clip) (s : State) (o : Nat) :
    (drawTilemap cat c s).spriteAt o = s.spriteAt o :=
  spriteAt_congr (by simp [State.readSP]) (by simp [State.readSP]) (by simp [State.readSS]) (by simp [State.readSS])

theorem drawTilemap_sameDraws {s t : State} (h : s.SameDraws t) (cat : Category) (c : Clip) :
    (drawTilemap cat c s).SameDraws (drawTilemap cat c t) where
  tiles := drawTilemap_sameTiles h.tiles
  spriteW := by simp [h.spriteW]
  spriteH := by simp [h.spriteH]
  spriteGfx := by simp [h.spriteGfx]
  slots o ho := by simp [h.slots o ho]
  penValid := by simp [h.penValid]
  videoEnable := by simp [h.videoEnable]
  responses := by simp [h.responses]

theorem drawSprites_sameDraws {s t : State} (h : s.SameDraws t) (c : Clip) :
    (drawSprites c s).SameDraws (drawSprites c t) where
  tiles :=
    { variant := by simp [h.tiles.variant]
      charGfx := by simp [h.tiles.charGfx]
      tileCode := by simp [h.tiles.tileCode]
      tileAttr := by simp [h.tiles.tileAttr]
      dirty := by simp [h.tiles.dirty]
      cache := by simp [h.tiles.cache]
      fb := drawSprites_congr h.spriteW h.spriteH h.spriteGfx h.slots h.tiles.fb }
  spriteW := by simp [h.spriteW]
  spriteH := by simp [h.spriteH]
  spriteGfx := by simp [h.spriteGfx]
  slots o ho := by simp [h.slots o ho]
  penValid := by simp [h.penValid]
  videoEnable := by simp [h.videoEnable]
  responses := by simp [h.responses]

theorem renderFrame_sameDraws {s t : State} (h : s.SameDraws t) (c : Clip) :
    (renderFrame c s).SameDraws (renderFrame c t) :=
  drawTilemap_sameDraws (drawSprites_sameDraws (drawTilemap_sameDraws h .below c) c) .above c

/-- A check for a built palette, then a draw: the answers agree in FB and the responses if the drawn states do. -/
theorem State.SameDraws.faultOr_paletteFault {s t s' t' : State} (h : s.SameDraws t) (h' : s'.SameDraws t') :
    (t.faultOr t.paletteFault t').fb = (s.faultOr s.paletteFault s').fb ∧
      (t.faultOr t.paletteFault t').responses = (s.faultOr s.paletteFault s').responses := by
  have hf : t.paletteFault = s.paletteFault := by simp only [State.paletteFault, h.penValid]
  rw [hf]
  cases s.paletteFault with
  | none => exact ⟨h'.tiles.fb, h'.responses⟩
  | some f => exact ⟨h.tiles.fb, by simp [h.responses]⟩

/-- On states that agree in what a draw reads, each of the three draw commands leaves the same FB and responses. -/
theorem exec_draw_of_sameDraws {s s' : State} (h : s.SameDraws s') {i : Instr} {cat : Category} {c : Clip}
    (hi : i = .tmd cat c ∨ i = .spd c ∨ i = .rfr c) {t : State} (ht : exec i s = .next t) :
    ∃ t', exec i s' = .next t' ∧ t'.fb = t.fb ∧ t'.responses = t.responses := by
  rw [exec_eq, Host.Outcome.next.injEq] at ht
  subst ht
  refine ⟨_, exec_eq i s', ?_⟩
  rcases hi with rfl | rfl | rfl
  · exact h.faultOr_paletteFault (drawTilemap_sameDraws h cat c)
  · exact h.faultOr_paletteFault (drawSprites_sameDraws h c)
  · refine h.faultOr_paletteFault ?_
    simp only [Instr.effect, h.videoEnable]
    split
    · exact renderFrame_sameDraws h c
    · exact h

/-! ## The sprite tables below offset 0x10 -/

theorem spriteSlots_ge {o : Nat} (h : o ∈ spriteSlots) : 0x10 ≤ o := by
  revert o
  decide

theorem readSP_writeSP_other (s : State) {off o : Nat} (val : Byte) (h : o ≠ off) :
    (s.writeSP off val).readSP o = s.readSP o :=
  Store.read_write_other unwrittenByte s.sprPrimary val h

theorem readSS_writeSS_other (s : State) {off o : Nat} (val : Byte) (h : o ≠ off) :
    (s.writeSS off val).readSS o = s.readSS o :=
  Store.read_write_other unwrittenByte s.sprSecondary val h

theorem writeSP_low_sameDraws (s : State) {off : Nat} (val : Byte) (h : off < 0x10) :
    s.SameDraws (s.writeSP off val) where
  tiles := ⟨rfl, rfl, rfl, rfl, rfl, rfl, rfl⟩
  spriteW := rfl
  spriteH := rfl
  spriteGfx := rfl
  slots o ho := by
    have := spriteSlots_ge ho
    exact spriteAt_congr (readSP_writeSP_other s val (by omega)) (readSP_writeSP_other s val (by omega)) rfl rfl
  penValid := rfl
  videoEnable := rfl
  responses := rfl

theorem writeSS_low_sameDraws (s : State) {off : Nat} (val : Byte) (h : off < 0x10) :
    s.SameDraws (s.writeSS off val) where
  tiles := ⟨rfl, rfl, rfl, rfl, rfl, rfl, rfl⟩
  spriteW := rfl
  spriteH := rfl
  spriteGfx := rfl
  slots o ho := by
    have := spriteSlots_ge ho
    exact spriteAt_congr rfl rfl (readSS_writeSS_other s val (by omega)) (readSS_writeSS_other s val (by omega))
  penValid := rfl
  videoEnable := rfl
  responses := rfl

end Sys2Proof.Machine
end

section
/-!
SUPPORT. The parts of the invariant, effect by effect: canonical memories, the cache, the palette, the mark.
-/

namespace Sys2Proof.Machine

/-! ## Canonical memories (10_state.md R37 (a)) -/

theorem memoryWf_renderFrame {c : Clip} {s : State} (h : s.MemoryWf) : (renderFrame c s).MemoryWf :=
  memoryWf_drawTilemap (memoryWf_drawSprites (memoryWf_drawTilemap h))

/-- A write that passed its check is inside its space, so every memory stays canonical. -/
theorem Instr.effect_memoryWf {s : State} {i : Instr} (hf : Instr.faultIn s i = none) (h : s.MemoryWf) :
    (Instr.effect s i).MemoryWf := by
  cases i with
  | twc off val =>
    have hoff := spaceFault_eq_none_iff.mp hf
    exact memoryWf_markDirty hoff (memoryWf_writeTC val hoff h)
  | twa off val =>
    have hoff := spaceFault_eq_none_iff.mp hf
    exact memoryWf_markDirty hoff (memoryWf_writeTA val hoff h)
  | swp off val => exact memoryWf_writeSP val (spaceFault_eq_none_iff.mp hf) h
  | sws off val => exact memoryWf_writeSS val (spaceFault_eq_none_iff.mp hf) h
  | rfr c =>
    rcases Instr.effect_rfr_cases s c with he | he <;> rw [he]
    · exact h
    · exact memoryWf_renderFrame h
  | tmd cat c => exact memoryWf_drawTilemap h
  | spd c => exact memoryWf_drawSprites h
  | pld | prd | ven | flp | rsl => exact memoryWf_congr (s := s) rfl rfl rfl rfl rfl rfl rfl h

/-! ## The cache (10_state.md R28) -/

theorem isDirty_markDirty (s : State) (t a : Nat) :
    (s.markDirty t).isDirty a = if a = t then true else s.isDirty a :=
  Store.read_write true s.dirty t true a

/-- A change of state that leaves the hidden state alone and the decode of every tile but one keeps the cache invariant,
if that tile is then marked dirty. -/
theorem markDirty_coherent {s t : State} {off : Nat} (hd : t.dirty = s.dirty) (hk : t.cache = s.cache)
    (hat : ∀ a, a ≠ off → t.tileAt a = s.tileAt a) (h : s.CacheCoherent) : (t.markDirty off).CacheCoherent := by
  intro a ha hclean
  rw [isDirty_markDirty] at hclean
  have hne : a ≠ off := by
    rintro rfl
    simp at hclean
  rw [if_neg hne, State.isDirty, hd] at hclean
  calc (t.markDirty off).cachedTile a
      = s.cachedTile a := by simp only [State.cachedTile, State.markDirty_cache, hk]
    _ = s.tileAt a := h a ha hclean
    _ = (t.markDirty off).tileAt a := (hat a hne).symm

theorem tileAt_writeTC_other (s : State) {off a : Nat} (val : Byte) (h : a ≠ off) :
    (s.writeTC off val).tileAt a = s.tileAt a := by
  simp only [State.tileAt, State.readTC, State.readTA, State.writeTC_board, State.writeTC_tileCode,
    State.writeTC_tileAttr, Store.read_write_other _ _ _ h]

theorem tileAt_writeTA_other (s : State) {off a : Nat} (val : Byte) (h : a ≠ off) :
    (s.writeTA off val).tileAt a = s.tileAt a := by
  simp only [State.tileAt, State.readTC, State.readTA, State.writeTA_board, State.writeTA_tileCode,
    State.writeTA_tileAttr, Store.read_write_other _ _ _ h]

theorem Instr.effect_coherent {s : State} (i : Instr) (h : s.CacheCoherent) : (Instr.effect s i).CacheCoherent := by
  cases i with
  | twc off val => exact markDirty_coherent (s := s) rfl rfl (fun _ => tileAt_writeTC_other s val) h
  | twa off val => exact markDirty_coherent (s := s) rfl rfl (fun _ => tileAt_writeTA_other s val) h
  | rfr c =>
    rcases Instr.effect_rfr_cases s c with he | he <;> rw [he]
    · exact h
    · exact renderFrame_coherent h
  | tmd cat c => exact drawTilemap_coherent h
  | spd c => exact drawSprites_coherent h
  | pld | prd | swp | sws | ven | flp | rsl => exact (coherent_congr (s := s) rfl rfl rfl rfl rfl).mpr h

/-- With every tile dirty the cache invariant asks for nothing. -/
theorem isDirty_of_dirty_nil {s : State} (h : s.dirty = []) (t : Nat) : s.isDirty t = true := by
  simp [State.isDirty, h]

theorem coherent_of_dirty_nil {s : State} (h : s.dirty = []) : s.CacheCoherent := by
  intro t _ hclean
  rw [isDirty_of_dirty_nil h] at hclean
  contradiction

/-! ## The mark (60_exceptions.md R206) -/

theorem takeFault_markExact (s : State) (f : Fault) : (s.takeFault f).MarkExact := by
  simp [State.MarkExact, Response.isFault]

/-- No effect sends a fault, so none has to mark the run. -/
theorem Instr.effect_markExact {s : State} (i : Instr) (h : s.MarkExact) : (Instr.effect s i).MarkExact := by
  unfold State.MarkExact at h ⊢
  cases i with
  | rfr c => rcases Instr.effect_rfr_cases s c with he | he <;> simp [he, h]
  | _ => simp [Instr.effect, Response.isFault, h]

/-! ## The tables (10_state.md R26, R37 (b)) -/

theorem length_baseBank (b : Board) : (baseBank b).length = 32 := by
  simp [baseBank]

theorem length_derivePalette (b : Board) : (derivePalette b).length = 384 := by
  simp [derivePalette, charPens, spritePens]

end Sys2Proof.Machine
end

section
/-!
SUPPORT. No command reads HOST_ADDRESS_MAP: every part of a step commutes with a change of it (20_memory.md R52).
-/

namespace Sys2Proof.Machine

/-- The state on a board with another HOST_ADDRESS_MAP. -/
def State.withAddressMap (m : HostAddressMap) (s : State) : State :=
  { s with board := { s.board with hostAddressMap := m } }

theorem refresh_withAddressMap (m : HostAddressMap) (s : State) (t : Nat) :
    (s.withAddressMap m).refresh t = (s.refresh t).withAddressMap m := by
  unfold State.refresh
  rw [apply_ite (State.withAddressMap m)]
  rfl

theorem cachedTile_withAddressMap (m : HostAddressMap) (s : State) (t : Nat) :
    (s.withAddressMap m).cachedTile t = s.cachedTile t := rfl

theorem blitTile_withAddressMap (c : Clip) (m : HostAddressMap) (s : State) (t : Nat) (d : DecodedTile) :
    (s.withAddressMap m).blitTile c t d = (s.blitTile c t d).withAddressMap m := rfl

theorem drawTile_withAddressMap (cat : Category) (c : Clip) (m : HostAddressMap) (s : State) (t : Nat) :
    drawTile cat c (s.withAddressMap m) t = (drawTile cat c s t).withAddressMap m := by
  unfold drawTile
  simp only [refresh_withAddressMap, cachedTile_withAddressMap, blitTile_withAddressMap,
    apply_ite (State.withAddressMap m)]

theorem drawTilemap_withAddressMap (cat : Category) (c : Clip) (m : HostAddressMap) (s : State) :
    drawTilemap cat c (s.withAddressMap m) = (drawTilemap cat c s).withAddressMap m :=
  List.foldl_hom (State.withAddressMap m) (fun s t => drawTile_withAddressMap cat c m s t)

theorem drawSprites_withAddressMap (c : Clip) (m : HostAddressMap) (s : State) :
    drawSprites c (s.withAddressMap m) = (drawSprites c s).withAddressMap m :=
  List.foldl_hom (State.withAddressMap m) (fun _ _ => rfl)

theorem renderFrame_withAddressMap (c : Clip) (m : HostAddressMap) (s : State) :
    renderFrame c (s.withAddressMap m) = (renderFrame c s).withAddressMap m := by
  simp only [renderFrame, drawTilemap_withAddressMap, drawSprites_withAddressMap]

theorem Instr.effect_withAddressMap (m : HostAddressMap) (s : State) (i : Instr) :
    Instr.effect (s.withAddressMap m) i = (Instr.effect s i).withAddressMap m := by
  cases i with
  | rfr c =>
    simp only [Instr.effect, renderFrame_withAddressMap, apply_ite (State.withAddressMap m)]
    rfl
  | tmd cat c => exact drawTilemap_withAddressMap cat c m s
  | spd c => exact drawSprites_withAddressMap c m s
  | _ => rfl

theorem Instr.faultIn_withAddressMap (m : HostAddressMap) (s : State) (i : Instr) :
    Instr.faultIn (s.withAddressMap m) i = Instr.faultIn s i := by
  cases i <;> rfl

theorem runWord_withAddressMap (m : HostAddressMap) (w : CommandWord) (s : State) :
    ∃ t, runWord w s = .next t ∧ runWord w (s.withAddressMap m) = .next (t.withAddressMap m) := by
  cases hd : decode w with
  | illegal why => exact ⟨_, runWord_of_illegal hd s, runWord_of_illegal hd _⟩
  | command i =>
    simp only [runWord_of_command hd, exec_eq, Instr.faultIn_withAddressMap, Instr.effect_withAddressMap]
    refine ⟨_, rfl, ?_⟩
    cases Instr.faultIn s i with
    | none => rfl
    | some f => rfl

theorem step_withAddressMap (m : HostAddressMap) (s : State) :
    ∃ t, step s = .next t ∧ step (s.withAddressMap m) = .next (t.withAddressMap m) := by
  cases hp : s.pending with
  | nil => exact ⟨s, step_of_pending_nil hp, step_of_pending_nil hp⟩
  | cons w rest =>
    rw [step_of_pending_cons hp, step_of_pending_cons (s := s.withAddressMap m) hp]
    exact runWord_withAddressMap m w { s with pending := rest }

end Sys2Proof.Machine
end

section
/-!
SUPPORT. The invariant is kept by every part of a step, so by every step and every host action; the statements of 10_state.md.
-/

namespace Sys2Proof.Machine

/-! ## The invariant, part by part of a step -/

/-- The invariant does not look at the board, its variant apart, nor at the command stream, and at the responses and the
mark only together. -/
theorem invFrom_run {b board : Board} {pending : List CommandWord} {responses : List Response} {faultMark : Bool}
    {s : State} (h : s.InvFrom b) (hv : board.variant = s.board.variant)
    (hk : faultMark = responses.any Response.isFault) :
    State.InvFrom b
      { s with board := board, pending := pending, responses := responses, faultMark := faultMark } :=
  invFrom_congr h rfl rfl rfl (memoryWf_congr (s := s) rfl rfl rfl rfl rfl rfl rfl h.memory)
    (Iff.mpr (coherent_congr hv rfl rfl rfl rfl) h.cache) hk

theorem setPending_invFrom {b : Board} {s : State} (words : List CommandWord) (h : s.InvFrom b) :
    State.InvFrom b { s with pending := words } := invFrom_run h rfl h.mark

theorem takeFault_invFrom {b : Board} {s : State} (f : Fault) (h : s.InvFrom b) : (s.takeFault f).InvFrom b :=
  invFrom_run h rfl (takeFault_markExact s f)

/-- PLD makes the present board the one the palette comes from (20_memory.md R65). -/
theorem buildPalette_invFrom {b : Board} {s : State} (h : s.InvFrom b) : s.buildPalette.InvFrom s.board where
  memory := memoryWf_congr (s := s) rfl rfl rfl rfl rfl rfl rfl h.memory
  tables := ⟨length_baseBank s.board, length_derivePalette s.board⟩
  palette _ := ⟨rfl, rfl⟩
  cache := (coherent_congr (s := s) rfl rfl rfl rfl rfl).mpr h.cache
  mark := h.mark

theorem Instr.effect_invFrom {b : Board} {s : State} {i : Instr} (hi : i ≠ .pld) (hf : Instr.faultIn s i = none)
    (h : s.InvFrom b) : (Instr.effect s i).InvFrom b := by
  obtain ⟨hbase, hpen, hvalid⟩ := Instr.effect_palette hi s
  exact invFrom_congr h hbase hpen hvalid (Instr.effect_memoryWf hf h.memory) (Instr.effect_coherent i h.cache)
    (Instr.effect_markExact i h.mark)

/-! ## The board at the last PLD -/

theorem State.lastPld_of_nil {s : State} (h : s.pending = []) (b : Board) : s.lastPld b = b := by
  simp [State.lastPld, h]

theorem State.lastPld_of_pld {s : State} {w : CommandWord} {rest : List CommandWord} (h : s.pending = w :: rest)
    (hd : decode w = .command .pld) (hb : s.board.promsSized = true) (b : Board) : s.lastPld b = s.board := by
  simp [State.lastPld, h, hd, hb]

theorem State.lastPld_of_not_pld {s : State} {w : CommandWord} {rest : List CommandWord} (h : s.pending = w :: rest)
    (hn : ¬(decode w = .command .pld ∧ s.board.promsSized = true)) (b : Board) : s.lastPld b = b := by
  simp only [State.lastPld, h, if_neg hn]

theorem State.lastPld_board (s : State) : s.lastPld s.board = s.board := by
  unfold State.lastPld
  split
  · rfl
  · exact ite_self _

/-! ## The invariant, step by step -/

theorem step_invFrom {b : Board} {s t : State} (h : s.InvFrom b) (hstep : step s = .next t) :
    t.InvFrom (s.lastPld b) := by
  rcases step_cases hstep with ⟨hp, rfl⟩ | ⟨w, rest, hp, hrun⟩
  · rwa [State.lastPld_of_nil hp]
  have h' := setPending_invFrom rest h
  rcases runWord_cases hrun with ⟨why, hd, rfl⟩ | ⟨i, hd, hexec⟩
  · rw [State.lastPld_of_not_pld hp (by simp [hd])]
    exact takeFault_invFrom _ h'
  rcases exec_cases hexec with ⟨f, hf, rfl⟩ | ⟨hf, rfl⟩
  · have hn : ¬(decode w = .command .pld ∧ s.board.promsSized = true) := by
      rintro ⟨hpld, hb⟩
      obtain rfl : i = .pld := by simpa [hd] using hpld
      have hnone : s.board.sizeFault = none := sizeFault_eq_none_iff.mpr hb
      exact absurd (hf.symm.trans hnone) (by simp)
    rw [State.lastPld_of_not_pld hp hn]
    exact takeFault_invFrom f h'
  · by_cases hi : i = .pld
    · subst hi
      rw [State.lastPld_of_pld hp hd (sizeFault_eq_none_iff.mp hf)]
      exact buildPalette_invFrom h'
    · rw [State.lastPld_of_not_pld hp (by simp [hd, hi])]
      exact Instr.effect_invFrom hi hf h'

/-- No step writes the board. -/
theorem step_board {s t : State} (h : step s = .next t) : t.board = s.board :=
  step_keeps (R := fun s t => t.board = s.board) (fun _ => rfl) State.takeFault_board Instr.effect_board
    (fun _ _ _ h => h) h

theorem step_penValid {s t : State} (h : step s = .next t) : s.penValid = true → t.penValid = true :=
  step_keeps (R := fun s t => s.penValid = true → t.penValid = true) (fun _ => id) (fun _ _ => id)
    (fun _ i h => Instr.effect_penValid h i) (fun _ _ _ h => h) h

theorem hostAct_invFrom {b : Board} {s : State} (a : HostAction) (h : s.InvFrom b) : (s.hostAct a).InvFrom b := by
  cases a with
  | issue w => exact setPending_invFrom _ h
  | pokePixel x y p =>
    exact invFrom_congr h rfl rfl rfl (memoryWf_pokePixel x y p h.memory)
      ((coherent_congr (s := s) rfl rfl rfl rfl rfl).mpr h.cache) h.mark
  | reloadProms cp lk => exact invFrom_run h rfl h.mark

/-- Settles O18: the strong form is the weak one with the present board as that of the last PLD, for no step writes the
board. -/
theorem everyStepKeepsTheInvariant : Obligations.EveryStepKeepsTheInvariant := by
  refine ⟨fun s t h hstep => ?_, fun b s t => step_invFrom, fun b s => hostAct_invFrom⟩
  have ht := step_invFrom h hstep
  rwa [State.lastPld_board, ← step_board hstep] at ht

/-! ## The states after reset -/

/-- After reset nothing is built, cached or reported, so the invariant asks only that the memories and tables fit. -/
theorem State.AfterReset.invFrom {s : State} (h : s.AfterReset) (b : Board) : s.InvFrom b where
  memory := h.memory
  tables := h.tables
  palette hvalid := by simp [h.penValid] at hvalid
  cache := coherent_of_dirty_nil h.dirty
  mark := by simp [State.MarkExact, h.faultMark, h.responses]

/-- Settles O20, from the invariant of every state 10_state.md R36 allows. -/
theorem everyAllowedResetMeetsTheInvariant : Obligations.EveryAllowedResetMeetsTheInvariant :=
  fun s h => ⟨h.invFrom s.board, h.invFrom, fun t _ => isDirty_of_dirty_nil h.dirty t⟩

theorem reset_afterReset : State.reset.AfterReset where
  penValid := rfl
  dirty := rfl
  responses := rfl
  faultMark := rfl
  memory := reset_memoryWf
  tables := ⟨List.length_replicate, List.length_replicate⟩

/-- Settles O19: the reset state is one of those of O20. -/
theorem resetMeetsTheInvariant : Obligations.ResetMeetsTheInvariant :=
  have ⟨hinv, hfrom, hdirty⟩ := everyAllowedResetMeetsTheInvariant State.reset reset_afterReset
  ⟨hinv, hfrom, reset_afterReset, rfl, hdirty⟩

/-! ## The board -/

/-- Settles O21: no effect writes the board, and the step commutes with a change of the address map. -/
theorem noCommandWritesTheBoard : Obligations.NoCommandWritesTheBoard := by
  refine ⟨fun s t h => ⟨step_board h, step_penValid h⟩, fun s m => ?_⟩
  obtain ⟨t, ht, hu⟩ := step_withAddressMap m s
  exact ⟨t, t.withAddressMap m, ht, hu, rfl⟩

/-! ## The low sprite offsets and the owners of each element -/

/-- Settles O47: a byte below offset 0x10 is in no slot, and a draw reads the sprite tables through the slots alone. -/
theorem lowSpriteOffsetsAreNeverRead : Obligations.LowSpriteOffsetsAreNeverRead := by
  intro s off val cat c i hoff hi
  have ht := exec_eq i s
  obtain ⟨tp, htp, hfbp, hrp⟩ := exec_draw_of_sameDraws (writeSP_low_sameDraws s val hoff) hi ht
  obtain ⟨ts, hts, hfbs, hrs⟩ := exec_draw_of_sameDraws (writeSS_low_sameDraws s val hoff) hi ht
  exact ⟨_, tp, ts, ht, htp, hts, hfbp, hfbs, hrp, hrs⟩

/-- Settles O58: a fault writes no element of the tuple of 10_state.md R22, and the effect of each command only its own. -/
theorem onlyDrawsWriteTheBuffer : Obligations.OnlyDrawsWriteTheBuffer := by
  intro i s t h
  rcases exec_cases h with ⟨f, -, rfl⟩ | ⟨-, rfl⟩
  · simp
  cases i with
  | rfr c => rcases Instr.effect_rfr_cases s c with he | he <;> simp [he]
  | _ => simp [Instr.effect]

end Sys2Proof.Machine
end

section
/-!
SUPPORT. What the host may change between two commands, FB and the words still waiting, reaches nothing else: every part of
a step carries the words along unread, and uses FB only to write over it (20_memory.md R57, R60).
-/

namespace Sys2Proof.Machine

/-- The state with another frame buffer and other words waiting. -/
def State.withHost (s : State) (fb : Buffer) (words : List CommandWord) : State := { s with fb := fb, pending := words }

/-- Whatever frame buffer and waiting words `s` is given, `f` carries the words along, rewrites FB in one way that does
not depend on them, and leaves the rest of the state the same. -/
def HostBlindAt (f : State → State) (s : State) : Prop :=
  ∃ (draw : Buffer → Buffer) (t : State), ∀ fb words, f (s.withHost fb words) = t.withHost (draw fb) words

theorem hostBlindAt_of_commutes {f : State → State} {s : State}
    (h : ∀ fb words, f (s.withHost fb words) = (f s).withHost fb words) : HostBlindAt f s := ⟨id, f s, h⟩

theorem hostBlindAt_foldl {f : State → Nat → State} (hf : ∀ a s, HostBlindAt (f · a) s) (as : List Nat) (s : State) :
    HostBlindAt (as.foldl f) s := by
  induction as generalizing s with
  | nil => exact ⟨id, s, fun _ _ => rfl⟩
  | cons a as ih =>
    obtain ⟨draw, t, h⟩ := hf a s
    obtain ⟨draw', t', h'⟩ := ih t
    exact ⟨draw' ∘ draw, t', fun fb words => by simp only [List.foldl_cons, h, h', Function.comp_apply]⟩

/-! ## The draws -/

theorem refresh_withHost (s : State) (t : Nat) (fb : Buffer) (words : List CommandWord) :
    (s.withHost fb words).refresh t = (s.refresh t).withHost fb words := by
  unfold State.refresh
  rw [apply_ite (State.withHost · fb words)]
  rfl

theorem drawTile_hostBlind (cat : Category) (c : Clip) (t : Nat) (s : State) :
    HostBlindAt (drawTile cat c · t) s := by
  by_cases hcat : ((s.refresh t).cachedTile t).priorityCategory = cat
  · refine ⟨fun fb => (((s.refresh t).withHost fb []).blitTile c t ((s.refresh t).cachedTile t)).fb, s.refresh t,
      fun fb words => ?_⟩
    simp only [drawTile, refresh_withHost]
    exact if_pos hcat
  · refine ⟨id, s.refresh t, fun fb words => ?_⟩
    simp only [drawTile, refresh_withHost]
    exact if_neg hcat

theorem drawTilemap_hostBlind (cat : Category) (c : Clip) (s : State) : HostBlindAt (drawTilemap cat c) s :=
  hostBlindAt_foldl (drawTile_hostBlind cat c) (tilesMeeting c) s

theorem blitSprite_hostBlind (c : Clip) (o : Nat) (s : State) : HostBlindAt (State.blitSprite c · o) s :=
  ⟨fun fb => (State.blitSprite c (s.withHost fb []) o).fb, s, fun _ _ => rfl⟩

theorem drawSprites_hostBlind (c : Clip) (s : State) : HostBlindAt (drawSprites c) s :=
  hostBlindAt_foldl (blitSprite_hostBlind c) spriteSlots s

theorem renderFrame_hostBlind (c : Clip) (s : State) : HostBlindAt (renderFrame c) s := by
  obtain ⟨low, t, hlow⟩ := drawTilemap_hostBlind .below c s
  obtain ⟨mid, u, hmid⟩ := drawSprites_hostBlind c t
  obtain ⟨high, v, hhigh⟩ := drawTilemap_hostBlind .above c u
  exact ⟨high ∘ mid ∘ low, v, fun fb words => by simp only [renderFrame, hlow, hmid, hhigh, Function.comp_apply]⟩

/-! ## One command -/

theorem Instr.effect_hostBlind (i : Instr) (s : State) : HostBlindAt (Instr.effect · i) s := by
  cases i with
  | rfr c =>
    by_cases hv : s.videoEnable = true
    · obtain ⟨draw, t, h⟩ := renderFrame_hostBlind c s
      exact ⟨draw, t, fun fb words => (if_pos hv).trans (h fb words)⟩
    · exact ⟨id, s, fun _ _ => if_neg hv⟩
  | tmd cat c => exact drawTilemap_hostBlind cat c s
  | spd c => exact drawSprites_hostBlind c s
  | _ => exact hostBlindAt_of_commutes fun _ _ => rfl

theorem Instr.faultIn_withHost (s : State) (i : Instr) (fb : Buffer) (words : List CommandWord) :
    Instr.faultIn (s.withHost fb words) i = Instr.faultIn s i := by
  cases i <;> rfl

theorem runWord_withHost (w : CommandWord) (s : State) :
    ∃ (draw : Buffer → Buffer) (t : State), ∀ fb words,
      runWord w (s.withHost fb words) = .next (t.withHost (draw fb) words) := by
  cases hd : decode w with
  | illegal why => exact ⟨id, s.takeFault (.illegalCommand w), fun _ _ => runWord_of_illegal hd _⟩
  | command i =>
    simp only [runWord_of_command hd, exec_eq, Instr.faultIn_withHost]
    cases Instr.faultIn s i with
    | some f => exact ⟨id, s.takeFault f, fun _ _ => rfl⟩
    | none =>
      obtain ⟨draw, t, h⟩ := Instr.effect_hostBlind i s
      exact ⟨draw, t, fun fb words => congrArg Host.Outcome.next (h fb words)⟩

/-- The step that takes the word w answers one state, up to what it draws on FB and the words behind w. -/
theorem step_withHost (w : CommandWord) (s : State) :
    ∃ (draw : Buffer → Buffer) (t : State), ∀ fb words,
      step (s.withHost fb (w :: words)) = .next (t.withHost (draw fb) words) := by
  obtain ⟨draw, t, h⟩ := runWord_withHost w s
  exact ⟨draw, t, fun fb words => (step_of_pending_cons rfl).trans (h fb words)⟩

theorem State.withHost_self {s : State} {words : List CommandWord} (h : s.pending = words) :
    s.withHost s.fb words = s := by
  subst h
  rfl

end Sys2Proof.Machine
end

section
/-!
SUPPORT. The statements of 20_memory.md: the command stream, the five-byte carriage, a PROM reload and the host's writes to
FB.
-/

namespace Sys2Proof.Machine

/-! ## The command stream -/

/-- Settles O8: the step runs the oldest word, and running a word that decodes executes its command. -/
theorem stepRunsTheDecodedCommand : Obligations.StepRunsTheDecodedCommand :=
  fun _ _ _ _ hp hd => (step_of_pending_cons hp).trans (runWord_of_command hd _)

/-- Settles O60: the step carries the words behind the oldest along unread, so one more among them changes nothing else. -/
theorem commandsRunInOrderOfIssue : Obligations.CommandsRunInOrderOfIssue := by
  intro s w hp
  obtain ⟨v, rest, hp⟩ := List.exists_cons_of_ne_nil hp
  obtain ⟨draw, t, h⟩ := step_withHost v s
  have hs : s.withHost s.fb (v :: rest) = s := State.withHost_self hp
  have hissue : s.withHost s.fb (v :: (rest ++ [w])) = s.hostAct (.issue w) :=
    congrArg (State.issue · w) hs
  exact ⟨t.withHost (draw s.fb) rest, hs ▸ h s.fb rest, hissue ▸ h s.fb (rest ++ [w])⟩

/-! ## The five bytes of a word -/

/-- The five bytes of a word, joined in their order, are the word (20_memory.md R55). -/
theorem joinedBytes_eq (w : CommandWord) :
    w.extractLsb' 32 8 ++ w.extractLsb' 24 8 ++ w.extractLsb' 16 8 ++ w.extractLsb' 8 8 ++ w.extractLsb' 0 8 = w := by
  apply BitVec.eq_of_getLsbD_eq
  intro j hj
  simp only [BitVec.getLsbD_append, BitVec.getLsbD_extractLsb']
  interval_cases j <;> simp

/-- Settles O6: the first five bytes of the stream are the word's own, and joined they are the word. -/
theorem fiveBytesOpcodeFirst : Obligations.FiveBytesOpcodeFirst :=
  fun w rest => ⟨congrArg (fun v => some (v, rest)) (joinedBytes_eq w), rfl, rfl⟩

/-! ## PROM reload -/

theorem exec_of_faultIn_none {i : Instr} {s : State} (h : Instr.faultIn s i = none) :
    exec i s = .next (Instr.effect s i) := by
  rw [exec_eq, h, State.faultOr_none]

theorem Instr.faultIn_prd_eq_none {s : State} {pen : Nat} (hp : pen ≤ 383) (hv : s.penValid = true) :
    Instr.faultIn s (.prd pen) = none := by
  have hin : spaceFault .PT 384 pen = none := spaceFault_eq_none_iff.mpr (by omega)
  simp [Instr.faultIn, hin, State.paletteFault, hv]

/-- Settles O28: PRD reads PEN and penValid, which a reload leaves, and PLD reads the PROMs, which it replaces
(20_memory.md R65). -/
theorem promReloadLeavesPenStale : Obligations.PromReloadLeavesPenStale := by
  intro s cp lk pen hp hv
  refine ⟨exec_of_faultIn_none (Instr.faultIn_prd_eq_none hp hv), fun hcp hlk => ?_⟩
  have hsized : (s.reloadProms cp lk).board.promsSized = true := by simp [Board.promsSized, hcp, hlk]
  exact ⟨_, exec_of_faultIn_none (i := .pld) (sizeFault_eq_none_iff.mpr hsized), rfl⟩

/-! ## The frame buffer -/

/-- Settles O59: FB is written over and never read, by the idle step as by one that takes a word. -/
theorem coreNeverReadsTheBuffer : Obligations.CoreNeverReadsTheBuffer := by
  refine ⟨fun s fb => ?_, fun s x y p X Y _ _ => readPixel_writePixel s.fb x.toNat y.toNat p X Y⟩
  by_cases hp : s.pending = []
  · exact ⟨s, { s with fb := fb }, step_of_pending_nil hp, step_of_pending_nil (s := { s with fb := fb }) hp, rfl⟩
  · obtain ⟨w, rest, hp⟩ := List.exists_cons_of_ne_nil hp
    obtain ⟨draw, t, h⟩ := step_withHost w s
    have hs : s.withHost s.fb (w :: rest) = s := State.withHost_self hp
    have hfb : s.withHost fb (w :: rest) = { s with fb := fb } := congrArg (fun s => { s with fb := fb }) hs
    exact ⟨t.withHost (draw s.fb) rest, t.withHost (draw fb) rest, hs ▸ h s.fb rest, hfb ▸ h fb rest, rfl⟩

end Sys2Proof.Machine
end

section
/-!
SUPPORT. The statements of 30_encoding.md: encode and decode as inverses, the match and mask table, the illegal words, the
worked encodings and the pseudo-instructions.
-/

namespace Sys2Proof

/-! ## Decoding an encoded command -/

theorem toNat_ofNat_of_fits {n : Nat} (h : fitsIndexField n = true) : (BitVec.ofNat 16 n).toNat = n :=
  Nat.mod_eq_of_lt (of_decide_eq_true h)

theorem decode_encode {i : Instr} (h : i.wellFormed = true) : decode (encode i) = .command i := by
  cases i with
  | pld | rsl | ven | flp | rfr | spd => simp [encode, decode, whenZero]
  | prd | twc | twa | swp | sws => simp [encode, decode, whenZero, toNat_ofNat_of_fits h]
  | tmd cat _ => cases cat <;> simp [encode, decode]

/-- Settles O1: each format's word has the opcode, the zero fields and the operands it was made of. -/
theorem decodeOfEncodeIsTheInstruction : Obligations.DecodeOfEncodeIsTheInstruction := fun _ => decode_encode

/-! ## A word is the word of its fields, format by format -/

/-- A field joined to the field right below it is one wider field. -/
theorem joinedFields_eq (w : CommandWord) (start len len' : Nat) :
    w.extractLsb' (start + len) len' ++ w.extractLsb' start len = w.extractLsb' start (len' + len) :=
  BitVec.extractLsb'_append_extractLsb'_eq_extractLsb' rfl

theorem formatN_of_fields {w : CommandWord} {op : Byte} (hop : opcodeOf w = op) (hz : zeroN w = true) :
    formatN op = w := by
  rw [formatN, ← hop, ← of_decide_eq_true hz]
  exact (joinedFields_eq w 0 32 8).trans BitVec.extractLsb'_eq_self

theorem formatP_of_fields {w : CommandWord} {op : Byte} (hop : opcodeOf w = op) (hz : zeroP w = true) :
    formatP op (penField w).toNat = w := by
  rw [formatP, ← hop, ← of_decide_eq_true hz, BitVec.ofNat_toNat, BitVec.setWidth_eq, opcodeOf, joinedFields_eq w 16 16 8]
  exact (joinedFields_eq w 0 16 24).trans BitVec.extractLsb'_eq_self

theorem formatW_of_fields {w : CommandWord} {op : Byte} (hop : opcodeOf w = op) (hz : zeroW w = true) :
    formatW op (offField w).toNat (valField w) = w := by
  rw [formatW, ← hop, ← of_decide_eq_true hz, BitVec.ofNat_toNat, BitVec.setWidth_eq, opcodeOf, joinedFields_eq w 24 8 8,
    offField, joinedFields_eq w 8 16 16]
  exact (joinedFields_eq w 0 8 32).trans BitVec.extractLsb'_eq_self

theorem ofBool_flagField (w : CommandWord) : BitVec.ofBool (flagField w) = w.extractLsb' 0 1 := by
  ext j hj
  obtain rfl : j = 0 := by omega
  simp [flagField]

theorem formatF_of_fields {w : CommandWord} {op : Byte} (hop : opcodeOf w = op) (hz : zeroF w = true) :
    formatF op (flagField w) = w := by
  rw [formatF, ← hop, ← of_decide_eq_true hz, ofBool_flagField, opcodeOf, joinedFields_eq w 1 31 8]
  exact (joinedFields_eq w 0 1 39).trans BitVec.extractLsb'_eq_self

theorem formatC_of_fields {w : CommandWord} {op : Byte} (hop : opcodeOf w = op) : formatC op (clipField w) = w := by
  rw [← hop]
  exact Machine.joinedBytes_eq w

theorem fitsIndexField_toNat (x : BitVec 16) : fitsIndexField x.toNat = true := decide_eq_true x.isLt

theorem wellFormed_encode_of_decode {w : CommandWord} {i : Instr} (h : decode w = .command i) :
    i.wellFormed = true ∧ encode i = w := by
  rcases decode_cases h with ⟨hop, hz, rfl⟩ | ⟨hop, hz, rfl⟩ | ⟨hop, hz, rfl⟩ | ⟨hop, hz, rfl⟩ | ⟨hop, hz, rfl⟩ |
    ⟨hop, hz, rfl⟩ | ⟨hop, hz, rfl⟩ | ⟨hop, hz, rfl⟩ | ⟨hop, hz, rfl⟩ | ⟨hop, rfl⟩ | ⟨hop, rfl⟩ | ⟨hop, rfl⟩ | ⟨hop, rfl⟩
  · exact ⟨rfl, formatN_of_fields hop hz⟩
  · exact ⟨fitsIndexField_toNat _, formatP_of_fields hop hz⟩
  · exact ⟨fitsIndexField_toNat _, formatW_of_fields hop hz⟩
  · exact ⟨fitsIndexField_toNat _, formatW_of_fields hop hz⟩
  · exact ⟨fitsIndexField_toNat _, formatW_of_fields hop hz⟩
  · exact ⟨fitsIndexField_toNat _, formatW_of_fields hop hz⟩
  · exact ⟨rfl, formatF_of_fields hop hz⟩
  · exact ⟨rfl, formatF_of_fields hop hz⟩
  · exact ⟨rfl, formatN_of_fields hop hz⟩
  · exact ⟨rfl, formatC_of_fields hop⟩
  · exact ⟨rfl, formatC_of_fields hop⟩
  · exact ⟨rfl, formatC_of_fields hop⟩
  · exact ⟨rfl, formatC_of_fields hop⟩

/-- Settles O2: the formats lose no bit of a word whose zero fields are zero. -/
theorem decodedWordEncodesBack : Obligations.DecodedWordEncodesBack := fun _ _ => wellFormed_encode_of_decode

/-! ## The match and mask table -/

theorem row_mem_opcodeTable (i : Instr) : i.row ∈ opcodeTable := by
  cases i <;> simp [opcodeTable, rowSamples, Instr.row]

theorem row_selects_encode (i : Instr) : i.row.selects (encode i) = true := by
  cases i with
  | pld => exact Laws.RowMatches.pld
  | prd pen => exact Laws.RowMatches.prd pen
  | twc off val => exact Laws.RowMatches.twc off val
  | twa off val => exact Laws.RowMatches.twa off val
  | swp off val => exact Laws.RowMatches.swp off val
  | sws off val => exact Laws.RowMatches.sws off val
  | ven f => exact Laws.RowMatches.ven f
  | flp f => exact Laws.RowMatches.flp f
  | rsl => exact Laws.RowMatches.rsl
  | rfr c => exact Laws.RowMatches.rfr c
  | tmd cat c => exact Laws.RowMatches.tmd cat c
  | spd c => exact Laws.RowMatches.spd c

theorem row_selects_of_decode {w : CommandWord} {i : Instr} (h : decode w = .command i) : i.row.selects w = true :=
  (wellFormed_encode_of_decode h).2 ▸ row_selects_encode i

/-- A field that the mask covers has its value in the match. -/
theorem field_of_masked {w mask pattern : CommandWord} {start len : Nat} (h : w &&& mask = pattern)
    (hmask : mask.extractLsb' start len = BitVec.allOnes len) :
    w.extractLsb' start len = pattern.extractLsb' start len := by
  rw [← h, BitVec.extractLsb'_and, hmask, BitVec.and_allOnes]

/-- TMD's mask leaves W[32] open, and with it the two opcodes 0x42 and 0x43 (30_encoding.md R84). -/
theorem opcodeOf_of_masked_tmd {w : CommandWord} (h : w &&& 0xFE00000000#40 = 0x4200000000#40) :
    opcodeOf w = 0x42#8 ∨ opcodeOf w = 0x43#8 := by
  have hhigh : w.extractLsb' 33 7 = 0x21#7 := field_of_masked h rfl
  rw [opcodeOf, ← joinedFields_eq w 32 1 7, hhigh]
  rcases BitVec.eq_zero_or_eq_one (w.extractLsb' 32 1) with hlow | hlow <;> simp [hlow]

/-- The mask covers the opcode and the zero fields, so a word that selects a row decodes to a command of that row. -/
theorem decode_of_selects {w : CommandWord} {j : Instr} (h : j.row.selects w = true) :
    ∃ i, decode w = .command i ∧ i.row = j.row := by
  replace h : w &&& j.row.mask = j.row.pattern := of_decide_eq_true h
  cases j <;> simp only [Instr.row] at h
  case pld | rsl =>
    have hop := field_of_masked (start := 32) (len := 8) h rfl
    have hz : zeroN w = true := decide_eq_true (field_of_masked h rfl)
    simp [decode, opcodeOf, hop, whenZero, hz, Instr.row]
  case prd =>
    have hop := field_of_masked (start := 32) (len := 8) h rfl
    have hz : zeroP w = true := decide_eq_true (field_of_masked h rfl)
    simp [decode, opcodeOf, hop, whenZero, hz, Instr.row]
  case twc | twa | swp | sws =>
    have hop := field_of_masked (start := 32) (len := 8) h rfl
    have hz : zeroW w = true := decide_eq_true (field_of_masked h rfl)
    simp [decode, opcodeOf, hop, whenZero, hz, Instr.row]
  case ven | flp =>
    have hop := field_of_masked (start := 32) (len := 8) h rfl
    have hz : zeroF w = true := decide_eq_true (field_of_masked h rfl)
    simp [decode, opcodeOf, hop, whenZero, hz, Instr.row]
  case rfr | spd =>
    have hop := field_of_masked (start := 32) (len := 8) h rfl
    simp [decode, opcodeOf, hop, Instr.row]
  case tmd => rcases opcodeOf_of_masked_tmd h with hop | hop <;> simp [decode, hop, Instr.row]

theorem decode_of_selects_mem {w : CommandWord} {r : OpcodeRow} (hr : r ∈ opcodeTable) (h : r.selects w = true) :
    ∃ i, decode w = .command i ∧ i.row = r := by
  obtain ⟨j, -, rfl⟩ := List.mem_map.mp hr
  exact decode_of_selects h

/-- Settles O3: a word selects the row of the command it decodes to and no other, since every selected row decodes. -/
theorem matchAndMaskDecide : Obligations.MatchAndMaskDecide := by
  refine ⟨fun w i h => ⟨row_mem_opcodeTable i, row_selects_of_decode h⟩, fun w => ⟨?_, ?_⟩, ?_⟩
  · rintro ⟨why, hill⟩ r hr
    rw [← Bool.not_eq_true]
    intro hsel
    obtain ⟨i, hi, -⟩ := decode_of_selects_mem hr hsel
    simp [hill] at hi
  · intro hnone
    cases hd : decode w with
    | command i => exact absurd (row_selects_of_decode hd) (by simp [hnone _ (row_mem_opcodeTable i)])
    | illegal why => exact ⟨why, rfl⟩
  · intro w r r' hr hr' h h'
    obtain ⟨i, hi, rfl⟩ := decode_of_selects_mem hr h
    obtain ⟨j, hj, rfl⟩ := decode_of_selects_mem hr' h'
    rw [Decoded.command.inj (hi.symm.trans hj)]

/-! ## The illegal words -/

theorem whenZero_illegal_iff {w : CommandWord} {z : Bool} {i : Instr} :
    (∃ why, whenZero w z i = .illegal why) ↔ z = false := by
  cases z <;> simp [whenZero]

/-- Settles O4: under each listed opcode the decoder tests the zero fields of its format and nothing else, and it refuses
every other opcode. -/
theorem opcodeAndZeroFieldsDecideLegality : Obligations.OpcodeAndZeroFieldsDecideLegality := by
  intro w
  simp only [List.mem_cons, List.not_mem_nil, or_false]
  by_cases hlisted : opcodeOf w = 0x01#8 ∨ opcodeOf w = 0x02#8 ∨ opcodeOf w = 0x10#8 ∨ opcodeOf w = 0x11#8 ∨
    opcodeOf w = 0x20#8 ∨ opcodeOf w = 0x21#8 ∨ opcodeOf w = 0x30#8 ∨ opcodeOf w = 0x31#8 ∨ opcodeOf w = 0x32#8 ∨
    opcodeOf w = 0x40#8 ∨ opcodeOf w = 0x42#8 ∨ opcodeOf w = 0x43#8 ∨ opcodeOf w = 0x44#8
  · rcases hlisted with h | h | h | h | h | h | h | h | h | h | h | h | h <;>
    simp [decode, h, whenZero_illegal_iff, zeroN, zeroP, zeroW, zeroF]
  · refine iff_of_true ⟨.unknownOpcode (opcodeOf w), ?_⟩ (.inl hlisted)
    simp only [not_or] at hlisted
    simp [decode, hlisted]

/-! ## The worked encodings -/

theorem decode_of_encode_eq {w : CommandWord} {i : Instr} (hi : i.wellFormed = true) (hw : encode i = w) :
    decode w = .command i := hw ▸ decode_encode hi

/-- Settles O5: each word is the encoding of its command, which therefore decodes back. -/
theorem workedEncodings : Obligations.WorkedEncodings :=
  ⟨⟨decode_of_encode_eq rfl rfl, rfl⟩, ⟨decode_of_encode_eq rfl rfl, rfl⟩, ⟨decode_of_encode_eq rfl rfl, rfl⟩,
    ⟨decode_of_encode_eq rfl rfl, rfl⟩, ⟨decode_of_encode_eq rfl rfl, rfl⟩, ⟨decode_of_encode_eq rfl rfl, rfl⟩⟩

end Sys2Proof

namespace Sys2Proof.Machine

/-! ## The pseudo-instructions -/

theorem writeLine_of_fits (make : Nat → Byte → Instr) {off val : Nat} (hoff : off ≤ 65535) (hval : val ≤ 255) :
    writeLine make off val = some (make off (BitVec.ofNat 8 val)) := by
  simp [writeLine, indexOperand, byteOperand, hoff, hval]

theorem assembleCommand_tile (t code attr : Nat) :
    assembleCommand "TILE".toList [t, code, attr] = tilePseudo t code attr := rfl

theorem assembleCommand_sprite (o x yraw code attr : Nat) :
    assembleCommand "SPRITE".toList [o, x, yraw, code, attr] = spritePseudo o x yraw code attr := rfl

theorem tilePseudo_of_fits {t code attr : Nat} (ht : t ≤ 65535) (hcode : code ≤ 255) (hattr : attr ≤ 255) :
    tilePseudo t code attr = some [.twc t (BitVec.ofNat 8 code), .twa t (BitVec.ofNat 8 attr)] := by
  simp [tilePseudo, writeLine_of_fits _ ht, hcode, hattr]

theorem spritePseudo_of_fits {o x yraw code attr : Nat} (ho : o % 2 = 0 ∧ 0x10 ≤ o ∧ o ≤ 0x3e) (hx : x ≤ 255)
    (hyraw : yraw ≤ 255) (hcode : code ≤ 255) (hattr : attr ≤ 255) :
    spritePseudo o x yraw code attr =
      some [.swp o (BitVec.ofNat 8 x), .swp (o + 1) (BitVec.ofNat 8 code), .sws o (BitVec.ofNat 8 attr),
        .sws (o + 1) (BitVec.ofNat 8 yraw)] := by
  have hfits : o + 1 ≤ 65535 := by omega
  simp only [spritePseudo, if_pos ho, writeLine_of_fits _ hfits, writeLine_of_fits _ (Nat.le_of_succ_le hfits), hx, hyraw,
    hcode, hattr]

theorem spritePseudo_of_not_slot {o x yraw code attr : Nat} (ho : ¬(o % 2 = 0 ∧ 0x10 ≤ o ∧ o ≤ 0x3e)) :
    spritePseudo o x yraw code attr = none := if_neg ho

/-- Settles O7: each mnemonic selects its expansion, whose operands fit their fields. -/
theorem assemblerExpandsPseudoInstructions : Obligations.AssemblerExpandsPseudoInstructions := by
  refine ⟨fun t code attr ht hcode hattr => ?_, fun o x yraw code attr heven hlow hhigh hx hyraw hcode hattr => ?_,
    fun o x yraw code attr ho => ?_, rfl, rfl, rfl⟩
  · rw [assembleCommand_tile, tilePseudo_of_fits ht hcode hattr]
  · rw [assembleCommand_sprite, spritePseudo_of_fits ⟨heven, hlow, hhigh⟩ hx hyraw hcode hattr]
  · rw [assembleCommand_sprite, spritePseudo_of_not_slot ho]

end Sys2Proof.Machine
end

section
/-!
SUPPORT. The statements of 40_palette.md: the channel sums, the bank and the pens they build, PLD and PRD.
-/

namespace Sys2Proof.Machine

/-! ## The channel sum (40_palette.md R101, R103) -/

theorem dac_le (b0 b1 b2 b3 b4 : Bool) : dac b0 b1 b2 b3 b4 ≤ 255 := by
  have := b0.toNat_le
  have := b1.toNat_le
  have := b2.toNat_le
  have := b3.toNat_le
  have := b4.toNat_le
  unfold dac
  omega

/-- A channel sum fits its eight bits (40_palette.md R103). -/
theorem toNat_ofNat_dac (b0 b1 b2 b3 b4 : Bool) :
    (BitVec.ofNat 8 (dac b0 b1 b2 b3 b4)).toNat = dac b0 b1 b2 b3 b4 :=
  Nat.mod_eq_of_lt (Nat.lt_succ_of_le (dac_le b0 b1 b2 b3 b4))

/-- Settles O24: the bound is of every bit pattern, the levels are those of the 32 patterns. -/
theorem dacRangeAndLevels : Obligations.DacRangeAndLevels :=
  ⟨dac_le, by decide⟩

theorem dac_true_bit0 (b1 b2 b3 b4 : Bool) : dac true b1 b2 b3 b4 = dac false b1 b2 b3 b4 + 25 := by
  simp only [dac, Bool.toNat_true, Bool.toNat_false]
  omega

theorem dac_true_bit1 (b0 b2 b3 b4 : Bool) : dac b0 true b2 b3 b4 = dac b0 false b2 b3 b4 + 36 := by
  simp only [dac, Bool.toNat_true, Bool.toNat_false]
  omega

theorem dac_true_bit2 (b0 b1 b3 b4 : Bool) : dac b0 b1 true b3 b4 = dac b0 b1 false b3 b4 + 53 := by
  simp only [dac, Bool.toNat_true, Bool.toNat_false]
  omega

theorem dac_true_bit3 (b0 b1 b2 b4 : Bool) : dac b0 b1 b2 true b4 = dac b0 b1 b2 false b4 + 64 := by
  simp only [dac, Bool.toNat_true, Bool.toNat_false]
  omega

theorem dac_true_bit4 (b0 b1 b2 b3 : Bool) : dac b0 b1 b2 b3 true = dac b0 b1 b2 b3 false + 77 := by
  simp only [dac, Bool.toNat_true, Bool.toNat_false]

/-! ## One base colour (40_palette.md R102) -/

theorem toNat_colorOf_r (s0 s1 : Byte) :
    (colorOf s0 s1).r.toNat =
      dac (s1.getLsbD 1) (s1.getLsbD 2) (s1.getLsbD 3) (s1.getLsbD 4) (s1.getLsbD 5) :=
  toNat_ofNat_dac ..

theorem toNat_colorOf_g (s0 s1 : Byte) :
    (colorOf s0 s1).g.toNat =
      dac (s1.getLsbD 6) (s1.getLsbD 7) (s0.getLsbD 0) (s0.getLsbD 1) (s0.getLsbD 2) :=
  toNat_ofNat_dac ..

theorem toNat_colorOf_b (s0 s1 : Byte) :
    (colorOf s0 s1).b.toNat =
      dac (s0.getLsbD 3) (s0.getLsbD 4) (s0.getLsbD 5) (s0.getLsbD 6) (s0.getLsbD 7) :=
  toNat_ofNat_dac ..

/-- Bytes that agree in bits 7..1 agree in each of them. -/
theorem getLsbD_succ_of_half_eq {x y : Byte} (h : x.toNat / 2 = y.toNat / 2) (k : Nat) :
    x.getLsbD (k + 1) = y.getLsbD (k + 1) := by
  simp only [← BitVec.testBit_toNat, Nat.testBit_succ, h]

/-- Bit 0 of the sub-bank 1 byte is not read (30_encoding.md R78). -/
theorem colorOf_congr_half {s1 s1' : Byte} (s0 : Byte) (h : s1.toNat / 2 = s1'.toNat / 2) :
    colorOf s0 s1 = colorOf s0 s1' := by
  simp only [colorOf, getLsbD_succ_of_half_eq h]

/-- Settles O26, bit by bit: the sum that reads bit k gains its weight, the sums that do not are as they were. -/
theorem oneBitMovesOneChannel : Obligations.OneBitMovesOneChannel := by
  refine fun s0 s1 => ⟨?red, ?greenOfBank1, ?greenOfBank0, ?blue⟩
  all_goals
    intro k w hk h0
    simp only [List.mem_cons, Prod.mk.injEq, List.not_mem_nil, or_false] at hk
  case' red => rcases hk with ⟨rfl, rfl⟩ | ⟨rfl, rfl⟩ | ⟨rfl, rfl⟩ | ⟨rfl, rfl⟩ | ⟨rfl, rfl⟩
  case' greenOfBank1 => rcases hk with ⟨rfl, rfl⟩ | ⟨rfl, rfl⟩
  case' greenOfBank0 => rcases hk with ⟨rfl, rfl⟩ | ⟨rfl, rfl⟩ | ⟨rfl, rfl⟩
  case' blue => rcases hk with ⟨rfl, rfl⟩ | ⟨rfl, rfl⟩ | ⟨rfl, rfl⟩ | ⟨rfl, rfl⟩ | ⟨rfl, rfl⟩
  all_goals
    simp [← BitVec.toNat_inj, toNat_colorOf_r, toNat_colorOf_g, toNat_colorOf_b, h0, dac_true_bit0, dac_true_bit1,
      dac_true_bit2, dac_true_bit3, dac_true_bit4, -BitVec.getLsbD_eq_getElem]

/-! ## The bank and the pens (40_palette.md R102, R104, R105) -/

theorem tableColor_baseBank (b : Board) {i : Nat} (hi : i < 32) :
    tableColor (baseBank b) i = colorOf (subBank0 b i) (subBank1 b i) := by
  simp [tableColor, baseBank, hi]

theorem lookupNibble_eq (b : Board) (k : Nat) : lookupNibble b k = (b.readLK k).toNat % 16 := by
  rw [lookupNibble, BitVec.toNat_and]
  exact Nat.and_two_pow_sub_one_eq_mod _ 4

/-- Pens 0..127 are the character pens (40_palette.md R105). -/
theorem tableColor_derivePalette_char (b : Board) {p : Nat} (hp : p < 128) :
    tableColor (derivePalette b) p = tableColor (baseBank b) ((b.readLK (256 + p)).toNat % 16 + 16) := by
  simp [tableColor, derivePalette, charPens, spritePens, lookupNibble_eq, List.getElem?_append, hp]

/-- Pens 128..383 are the sprite pens (40_palette.md R105). -/
theorem tableColor_derivePalette_sprite (b : Board) {p : Nat} (hlow : 128 ≤ p) (hp : p < 384) :
    tableColor (derivePalette b) p = tableColor (baseBank b) ((b.readLK (p - 128)).toNat % 16) := by
  have hk : p - 128 < 256 := by omega
  simp [tableColor, derivePalette, charPens, spritePens, lookupNibble_eq, List.getElem?_append, hlow.not_gt, hk]

/-- Settles O25: a bank entry reads bits 7..1 of its sub-bank 1 byte, a pen the low nibble of its lookup byte. -/
theorem paletteIgnoresUnusedBits : Obligations.PaletteIgnoresUnusedBits := by
  intro b b' h0 h1 hlk
  have hbank : baseBank b = baseBank b' :=
    List.map_congr_left fun i hi => by
      have hi := List.mem_range.mp hi
      rw [h0 i hi, colorOf_congr_half _ (h1 i hi)]
  have hnibble : ∀ k, k < 384 → lookupNibble b k = lookupNibble b' k := fun k hk => by
    rw [lookupNibble_eq, lookupNibble_eq, hlk k hk]
  have hchar : charPens b (baseBank b) = charPens b' (baseBank b') :=
    List.map_congr_left fun k hk => by
      rw [hbank, hnibble (256 + k) (by have := List.mem_range.mp hk; omega)]
  have hsprite : spritePens b (baseBank b) = spritePens b' (baseBank b') :=
    List.map_congr_left fun k hk => by
      rw [hbank, hnibble k (by have := List.mem_range.mp hk; omega)]
  exact ⟨hbank, congrArg₂ _ hchar hsprite⟩

/-! ## PLD (40_palette.md R106) -/

theorem subBank0_eq (b : Board) (i : Nat) :
    subBank0 b i = if b.promLayout = .contiguous then b.readCP i else b.readCP (2 * i) := by
  cases h : b.promLayout <;> simp [subBank0, h]

theorem subBank1_eq (b : Board) (i : Nat) :
    subBank1 b i = if b.promLayout = .contiguous then b.readCP (32 + i) else b.readCP (2 * i + 1) := by
  cases h : b.promLayout <;> simp [subBank1, h]

/-- With PROM blobs of the exact sizes PLD completes. -/
theorem exec_pld_of_sized {s : State} (hcp : s.board.colorProm.size = 64) (hlk : s.board.lookup.size = 384) :
    exec .pld s = .next s.buildPalette :=
  exec_of_faultIn_none (i := .pld) (sizeFault_eq_none_iff.mpr (by simp [Board.promsSized, hcp, hlk]))

/-- Settles O22: the tables are those of the bank and the closed form of the pens; the rest is R106's frame. -/
theorem pldBuildsThePenTable : Obligations.PldBuildsThePenTable := by
  intro s hcp hlk
  refine ⟨s.buildPalette, exec_pld_of_sized hcp hlk, rfl, length_baseBank s.board, length_derivePalette s.board,
    fun i hi => ?_, fun p hp => tableColor_derivePalette_char s.board (by omega),
    fun p hlow hp => tableColor_derivePalette_sprite s.board hlow (by omega)⟩
  have hbase : s.buildPalette.baseColor i = colorOf (subBank0 s.board i) (subBank1 s.board i) :=
    tableColor_baseBank s.board hi
  rw [hbase, ← subBank0_eq, ← subBank1_eq]
  exact ⟨toNat_colorOf_r .., toNat_colorOf_g .., toNat_colorOf_b ..⟩

/-- Settles O23: PLD leaves the PROMs, so the second builds the same tables. -/
theorem pldIsIdempotent : Obligations.PldIsIdempotent := fun _ hcp hlk =>
  ⟨_, exec_pld_of_sized hcp hlk, exec_pld_of_sized hcp hlk⟩

/-! ## PRD (40_palette.md R107) -/

theorem toNat_rgbWord (c : Rgb) : (rgbWord c).toNat = 65536 * c.r.toNat + 256 * c.g.toNat + c.b.toNat := by
  rw [rgbWord, BitVec.toNat_append, BitVec.toNat_append, ← Nat.shiftLeft_add_eq_or_of_lt c.b.isLt,
    ← Nat.shiftLeft_add_eq_or_of_lt c.g.isLt, Nat.shiftLeft_eq, Nat.shiftLeft_eq]
  omega

theorem exec_of_faultIn_some {i : Instr} {s : State} {f : Fault} (h : Instr.faultIn s i = some f) :
    exec i s = .next (s.takeFault f) := by
  rw [exec_eq, h, State.faultOr_some]

/-- The address is checked first, whatever penValid is. -/
theorem Instr.faultIn_prd_of_gt {s : State} {pen : Nat} (hp : 383 < pen) :
    Instr.faultIn s (.prd pen) = some (.addressing .PT pen) := by
  have hout : ¬pen < 384 := by omega
  simp [Instr.faultIn, spaceFault, hout]

theorem Instr.faultIn_prd_of_not_built {s : State} {pen : Nat} (hp : pen ≤ 383) (hv : s.penValid = false) :
    Instr.faultIn s (.prd pen) = some .paletteNotBuilt := by
  have hin : spaceFault .PT 384 pen = none := spaceFault_eq_none_iff.mpr (by omega)
  simp [Instr.faultIn, hin, State.paletteFault, hv]

/-- Settles O27, by the outcome of PRD's two checks. -/
theorem prdRespondsWithThePen : Obligations.PrdRespondsWithThePen := fun s pen =>
  ⟨fun hp hv => ⟨rgbWord (s.penColor pen), toNat_rgbWord _, exec_of_faultIn_none (Instr.faultIn_prd_eq_none hp hv)⟩,
    fun hp => exec_of_faultIn_some (Instr.faultIn_prd_of_gt hp),
    fun hp hv => exec_of_faultIn_some (Instr.faultIn_prd_of_not_built hp hv)⟩

end Sys2Proof.Machine
end


section
/-!
SUPPORT. The statements of 41_tile_decode.md: the fields that the two variants decode, and bytes that decode to a given
tile.
-/

namespace Sys2Proof.Machine

/-! ## The fields of the attribute byte (41_tile_decode.md R122, R123) -/

/-- Masking keeps the field of `len` bits from `start` up, where it stands. -/
theorem and_field_eq (x start len : Nat) : x &&& (2 ^ len - 1) * 2 ^ start = 2 ^ start * (x / 2 ^ start % 2 ^ len) := by
  refine Nat.eq_of_testBit_eq fun i => ?_
  rw [Nat.testBit_and, Nat.testBit_mul_two_pow, Nat.testBit_two_pow_mul, Nat.testBit_two_pow_sub_one,
    Nat.testBit_mod_two_pow, Nat.testBit_div_two_pow]
  by_cases hi : start ≤ i
  · simp [hi, Bool.and_comm]
  · simp [hi]

theorem getLsbD_eq_decide (a : Byte) (k : Nat) : a.getLsbD k = decide (a.toNat / 2 ^ k % 2 = 1) := by
  rw [← BitVec.testBit_toNat, Nat.testBit_eq_decide_div_mod_eq]

theorem categoryOf_inj {p q : Bool} : categoryOf p = categoryOf q ↔ p = q := by
  cases p <;> cases q <;> decide

/-! ## What each variant decodes -/

theorem decodeA_graphicsCode (c a : Byte) : (decodeA c a).graphicsCode = c.toNat + 256 * (a.toNat / 32 % 2) := by
  have hmask : (a &&& 0x20#8).toNat = 32 * (a.toNat / 32 % 2) := and_field_eq a.toNat 5 1
  simp only [decodeA, hmask]
  omega

theorem decodeB_graphicsCode (c a : Byte) : (decodeB c a).graphicsCode = c.toNat + 256 * (a.toNat / 32 % 4) := by
  have hmask : (a &&& 0x60#8).toNat = 32 * (a.toNat / 32 % 4) := and_field_eq a.toNat 5 2
  simp only [decodeB, hmask]
  omega

theorem decodeA_colorGroup (c a : Byte) : (decodeA c a).colorGroup = a.toNat % 32 :=
  Nat.and_two_pow_sub_one_eq_mod a.toNat 5

theorem decodeB_colorGroup (c a : Byte) : (decodeB c a).colorGroup = a.toNat % 32 :=
  Nat.and_two_pow_sub_one_eq_mod a.toNat 5

theorem decodeA_colorGroup_le (c a : Byte) : (decodeA c a).colorGroup ≤ 31 := by
  rw [decodeA_colorGroup]
  omega

theorem decodeB_colorGroup_le (c a : Byte) : (decodeB c a).colorGroup ≤ 31 := decodeA_colorGroup_le c a

/-- The code byte and one attribute bit make nine bits (41_tile_decode.md R122). -/
theorem decodeA_graphicsCode_le (c a : Byte) : (decodeA c a).graphicsCode ≤ 511 := by
  have := c.isLt
  rw [decodeA_graphicsCode]
  omega

/-- The code byte and two attribute bits make ten bits (41_tile_decode.md R123). -/
theorem decodeB_graphicsCode_le (c a : Byte) : (decodeB c a).graphicsCode ≤ 1023 := by
  have := c.isLt
  rw [decodeB_graphicsCode]
  omega

/-- Settles O29: the mask 0x20 keeps bit 5 at weight 32, and the factor 8 puts it at 256. -/
theorem variantADecode : Obligations.VariantADecode := fun c a =>
  ⟨decodeA_graphicsCode c a, decodeA_graphicsCode_le c a, decodeA_colorGroup c a, rfl, rfl, rfl⟩

/-- Settles O30: the mask 0x60 keeps bits 6 and 5 at weight 32, and the factor 8 puts them at 256. -/
theorem variantBDecode : Obligations.VariantBDecode := fun c a =>
  ⟨decodeB_graphicsCode c a, decodeB_graphicsCode_le c a, decodeB_colorGroup c a, rfl, rfl, rfl⟩

/-! ## The reachable tiles (41_tile_decode.md R124, R125) -/

/-- The attribute byte of a colour group, bits 6 and 5, and bit 7. -/
def attrByte (group mid : Nat) (top : Bool) : Byte := BitVec.ofNat 8 (group + 32 * mid + 128 * top.toNat)

theorem toNat_attrByte {group mid : Nat} (hgroup : group ≤ 31) (hmid : mid ≤ 3) (top : Bool) :
    (attrByte group mid top).toNat = group + 32 * mid + 128 * top.toNat := by
  have := top.toNat_le
  exact Nat.mod_eq_of_lt (by omega)

theorem attrByte_bit7 {group mid : Nat} (hgroup : group ≤ 31) (hmid : mid ≤ 3) (top : Bool) :
    (attrByte group mid top).getLsbD 7 = top := by
  rw [getLsbD_eq_decide, toNat_attrByte hgroup hmid]
  cases top <;> simp <;> omega

theorem attrByte_bit6 {group high : Nat} (hgroup : group ≤ 31) (hhigh : high ≤ 1) (flip top : Bool) :
    (attrByte group (high + 2 * flip.toNat) top).getLsbD 6 = flip := by
  have hmid : high + 2 * flip.toNat ≤ 3 := by have := flip.toNat_le; omega
  rw [getLsbD_eq_decide, toNat_attrByte hgroup hmid]
  cases flip <;> cases top <;> simp <;> omega

/-- Bit 4 is both the category and the top bit of the group. -/
theorem decodeA_category (c a : Byte) :
    (decodeA c a).priorityCategory =
      if (decodeA c a).colorGroup / 16 = 1 then Category.above else Category.below := by
  have hbit : a.toNat % 32 / 16 = a.toNat / 16 % 2 := by omega
  rw [decodeA_colorGroup, hbit]
  simp [decodeA, categoryOf, getLsbD_eq_decide, -BitVec.getLsbD_eq_getElem]

theorem DecodedTile.ext {d e : DecodedTile} (hcode : d.graphicsCode = e.graphicsCode)
    (hgroup : d.colorGroup = e.colorGroup) (hx : d.flipX = e.flipX) (hy : d.flipY = e.flipY)
    (hcat : d.priorityCategory = e.priorityCategory) : d = e := by
  cases d
  cases e
  simp_all

/-- Bit 5 is the ninth code bit and bits 6 and 7 are the flips; bit 4 follows from the group. -/
theorem decodeA_attrByte {d : DecodedTile} (hcode : d.graphicsCode ≤ 511) (hgroup : d.colorGroup ≤ 31)
    (hcat : d.priorityCategory = if d.colorGroup / 16 = 1 then Category.above else Category.below) :
    decodeA (BitVec.ofNat 8 d.graphicsCode)
      (attrByte d.colorGroup (d.graphicsCode / 256 + 2 * d.flipX.toNat) d.flipY) = d := by
  have hhigh : d.graphicsCode / 256 ≤ 1 := by omega
  have hmid : d.graphicsCode / 256 + 2 * d.flipX.toNat ≤ 3 := by have := d.flipX.toNat_le; omega
  have hdecoded : (decodeA (BitVec.ofNat 8 d.graphicsCode)
      (attrByte d.colorGroup (d.graphicsCode / 256 + 2 * d.flipX.toNat) d.flipY)).colorGroup = d.colorGroup := by
    rw [decodeA_colorGroup, toNat_attrByte hgroup hmid]
    omega
  refine DecodedTile.ext ?_ hdecoded (attrByte_bit6 hgroup hhigh _ _) (attrByte_bit7 hgroup hmid _) ?_
  · rw [decodeA_graphicsCode, toNat_attrByte hgroup hmid, BitVec.toNat_ofNat]
    omega
  · rw [decodeA_category, hdecoded, hcat]

/-- Bits 6 and 5 are the upper code bits and bit 7 is the category, free of the group. -/
theorem decodeB_attrByte {d : DecodedTile} (hcode : d.graphicsCode ≤ 1023) (hgroup : d.colorGroup ≤ 31)
    (hx : d.flipX = false) (hy : d.flipY = false) :
    decodeB (BitVec.ofNat 8 d.graphicsCode)
      (attrByte d.colorGroup (d.graphicsCode / 256) (d.priorityCategory == .above)) = d := by
  have hmid : d.graphicsCode / 256 ≤ 3 := by omega
  refine DecodedTile.ext ?_ ?_ hx.symm hy.symm ?_
  · rw [decodeB_graphicsCode, toNat_attrByte hgroup hmid, BitVec.toNat_ofNat]
    omega
  · rw [decodeB_colorGroup, toNat_attrByte hgroup hmid]
    omega
  · simp only [decodeB, attrByte_bit7 hgroup hmid]
    cases d.priorityCategory <;> rfl

/-- Settles O31: the fields of a decoded tile obey the bounds, and a tile within them has bytes that decode to it. -/
theorem variantsReachableTiles : Obligations.VariantsReachableTiles := by
  refine fun d => ⟨⟨?_, fun ⟨hcode, hgroup, hcat⟩ => ⟨_, _, decodeA_attrByte hcode hgroup hcat⟩⟩,
    ⟨?_, fun ⟨hcode, hgroup, hx, hy⟩ => ⟨_, _, decodeB_attrByte hcode hgroup hx hy⟩⟩⟩
  · rintro ⟨c, a, rfl⟩
    exact ⟨decodeA_graphicsCode_le c a, decodeA_colorGroup_le c a, decodeA_category c a⟩
  · rintro ⟨c, a, rfl⟩
    exact ⟨decodeB_graphicsCode_le c a, decodeB_colorGroup_le c a, rfl, rfl⟩

/-! ## Where the variants agree (41_tile_decode.md R126) -/

/-- A decodes bit 5 alone, B bits 6 and 5, so the codes differ by bit 6 at weight 512. -/
theorem graphicsCode_eq_iff (c a : Byte) :
    (decodeA c a).graphicsCode = (decodeB c a).graphicsCode ↔ a.getLsbD 6 = false := by
  rw [decodeA_graphicsCode, decodeB_graphicsCode, getLsbD_eq_decide, decide_eq_false_iff_not]
  omega

/-- Settles O32: both take the group from the low five bits; the categories are those of bits 4 and 7. -/
theorem variantsAgreeOnColorGroup : Obligations.VariantsAgreeOnColorGroup := fun c a =>
  ⟨rfl, graphicsCode_eq_iff c a, categoryOf_inj⟩

end Sys2Proof.Machine
end


section
/-!
SUPPORT. The writes to tile memory and the geometry of tiles and clips: the statements of 42_tilemap.md that need no draw.
-/

namespace Sys2Proof.Machine

/-! ## TWC and TWA (42_tilemap.md R141, R142) -/

theorem spaceFault_of_ge {space : Space} {size index : Nat} (h : size ≤ index) :
    spaceFault space size index = some (.addressing space index) := by
  simp [spaceFault, h]

theorem readTC_writeTC (s : State) (off : Nat) (val : Byte) (a : Nat) :
    (s.writeTC off val).readTC a = if a = off then val else s.readTC a :=
  Store.read_write unwrittenByte s.tileCode off val a

theorem readTA_writeTA (s : State) (off : Nat) (val : Byte) (a : Nat) :
    (s.writeTA off val).readTA a = if a = off then val else s.readTA a :=
  Store.read_write unwrittenByte s.tileAttr off val a

/-- Settles O33, by the outcome of TWC's one check. -/
theorem twcStoresAndMarksDirty : Obligations.TwcStoresAndMarksDirty := fun s off val =>
  ⟨fun hoff => ⟨_, exec_of_faultIn_none (i := .twc off val) (spaceFault_eq_none_iff.mpr (by omega)), rfl,
    readTC_writeTC s off val, isDirty_markDirty (s.writeTC off val) off⟩,
    fun hoff => exec_of_faultIn_some (i := .twc off val) (spaceFault_of_ge hoff)⟩

/-- Settles O34, by the outcome of TWA's one check. -/
theorem twaStoresAndMarksDirty : Obligations.TwaStoresAndMarksDirty := fun s off val =>
  ⟨fun hoff => ⟨_, exec_of_faultIn_none (i := .twa off val) (spaceFault_eq_none_iff.mpr (by omega)), rfl,
    readTA_writeTA s off val, isDirty_markDirty (s.writeTA off val) off⟩,
    fun hoff => exec_of_faultIn_some (i := .twa off val) (spaceFault_of_ge hoff)⟩

/-! ## The pen of a tile (42_tilemap.md R143) -/

/-- Four pens a group: a pixel value is at most 3, so groups 0..31 stay below pen 128. -/
theorem tilePen_le {b : Board} {d : DecodedTile} (h : d.colorGroup ≤ 31) (dx dy : Nat) : tilePen b d dx dy ≤ 127 := by
  have := (b.charPixel d.graphicsCode (mirrored d.flipX 8 dx) (mirrored d.flipY 8 dy)).isLt
  unfold tilePen
  omega

/-- Settles O37: the mirrored coordinate of an 8-pixel block is the one under the flip. -/
theorem tilePenMirrorsAndSelectsTheGroup : Obligations.TilePenMirrorsAndSelectsTheGroup :=
  fun _ _ dx dy _ _ => ⟨rfl, fun hgroup => tilePen_le hgroup dx dy⟩

/-! ## The blocks of the tiles (42_tilemap.md R144) -/

/-- A pixel lies in the block of a tile exactly when that tile is the one covering it. -/
theorem mem_block_iff_tileCovering {t X Y : Nat} (hX : X < 256) :
    (8 * tileCol t ≤ X ∧ X ≤ 8 * tileCol t + 7 ∧ 8 * tileRow t ≤ Y ∧ Y ≤ 8 * tileRow t + 7) ↔ t = tileCovering X Y := by
  unfold tileCol tileRow tileCovering
  omega

theorem block_in_buffer {t : Nat} (ht : t < 1024) : 8 * tileCol t + 7 ≤ 255 ∧ 8 * tileRow t + 7 ≤ 255 := by
  unfold tileCol tileRow
  omega

/-- Settles O38: the tile of a pixel is the one covering it. -/
theorem tilesPartitionTheBuffer : Obligations.TilesPartitionTheBuffer := by
  refine ⟨fun X Y hX hY => ?_, fun t ht => ?_, by decide, by decide, by decide, by decide⟩
  · have hX : X < 256 := by omega
    have hY : Y < 256 := by omega
    exact ⟨tileCovering X Y, ⟨tileCovering_lt hX hY, (mem_block_iff_tileCovering hX).mpr rfl⟩,
      fun t' _ h1 h2 h3 h4 => (mem_block_iff_tileCovering hX).mp ⟨h1, h2, h3, h4⟩⟩
  · obtain ⟨hcol, hrow⟩ := block_in_buffer ht
    exact ⟨hcol, hrow, rfl, rfl⟩

/-! ## Clip regions (42_tilemap.md R145) -/

theorem insideClip_eq_true (c : Clip) (X Y : Nat) :
    insideClip c X Y = true ↔
      (c.minX.toNat ≤ X ∧ X ≤ c.maxX.toNat) ∧ (c.minY.toNat ≤ Y ∧ Y ≤ c.maxY.toNat) := by
  rw [insideClip, inClip_eq_true]
  omega

/-- A tile meets a clip exactly when a pixel of its block is inside: the one nearest to the clip's lowest corner is. -/
theorem tileMeets_iff_exists_inside (t : Nat) (c : Clip) :
    tileMeets t c = true ↔
      ∃ dx dy, dx ≤ 7 ∧ dy ≤ 7 ∧ insideClip c (8 * tileCol t + dx) (8 * tileRow t + dy) = true := by
  simp only [tileMeets_eq_true, insideClip_eq_true]
  constructor
  · intro h
    exact ⟨c.minX.toNat - 8 * tileCol t, c.minY.toNat - 8 * tileRow t, by omega⟩
  · rintro ⟨dx, dy, h⟩
    omega

/-- The clip holds no pixel (42_tilemap.md R145). -/
def InvertedClip (c : Clip) : Prop := c.maxX.toNat < c.minX.toNat ∨ c.maxY.toNat < c.minY.toNat

theorem inClip_of_inverted {c : Clip} (h : InvertedClip c) (x y : Int) : inClip c x y = false := by
  rw [Bool.eq_false_iff, Ne, inClip_eq_true]
  unfold InvertedClip at h
  omega

theorem tilesMeeting_of_inverted {c : Clip} (h : InvertedClip c) : tilesMeeting c = [] := by
  refine List.filter_eq_nil_iff.mpr fun t _ hmeets => ?_
  obtain ⟨dx, dy, -, -, hin⟩ := (tileMeets_iff_exists_inside t c).mp hmeets
  simp [insideClip, inClip_of_inverted h] at hin

theorem drawTilemap_of_inverted {c : Clip} (h : InvertedClip c) (cat : Category) (s : State) :
    drawTilemap cat c s = s := by
  rw [drawTilemap, tilesMeeting_of_inverted h, List.foldl_nil]

theorem blit_of_inverted {c : Clip} (hc : InvertedClip c) (x y : Int) (w h : Nat) (paint : Nat → Nat → Option Pen)
    (fb : Buffer) : blit c x y w h paint fb = fb :=
  List.foldl_fixed' (fun _ => by simp [plot, inClip_of_inverted hc]) _

theorem drawSprites_of_inverted {c : Clip} (h : InvertedClip c) (s : State) : drawSprites c s = s :=
  List.foldl_fixed' (fun o => by rw [State.blitSprite, blit_of_inverted h]) spriteSlots

/-- The three draw commands of a clip (42_tilemap.md R145). -/
inductive DrawsThrough (c : Clip) : Instr → Prop
  | tmd (cat : Category) : DrawsThrough c (.tmd cat c)
  | spd : DrawsThrough c (.spd c)
  | rfr : DrawsThrough c (.rfr c)

/-- With inverted bounds no draw has an effect. -/
theorem Instr.effect_draw_of_inverted {c : Clip} (h : InvertedClip c) {i : Instr} (hi : DrawsThrough c i) (s : State) :
    Instr.effect s i = s := by
  cases hi with
  | tmd cat => exact drawTilemap_of_inverted h cat s
  | spd => exact drawSprites_of_inverted h s
  | rfr => simp only [Instr.effect, renderFrame, drawTilemap_of_inverted h, drawSprites_of_inverted h, ite_self]

/-- With a built palette no draw faults (60_exceptions.md R203). -/
theorem Instr.faultIn_draw_eq_none {s : State} (hv : s.penValid = true) {i : Instr} {c : Clip}
    (hi : DrawsThrough c i) : Instr.faultIn s i = none := by
  cases hi <;> simp [Instr.faultIn, State.paletteFault, hv]

/-- With inverted bounds a draw leaves FB, whether it faults or not. -/
theorem exec_draw_fb_of_inverted {c : Clip} (h : InvertedClip c) {i : Instr} (hi : DrawsThrough c i) {s t : State}
    (ht : exec i s = .next t) : t.fb = s.fb := by
  rcases exec_cases ht with ⟨f, -, rfl⟩ | ⟨-, rfl⟩
  · rfl
  · rw [Instr.effect_draw_of_inverted h hi]

/-- With inverted bounds and a built palette a draw answers the state it was given. -/
theorem exec_draw_of_inverted {c : Clip} (h : InvertedClip c) {i : Instr} (hi : DrawsThrough c i) {s : State}
    (hv : s.penValid = true) : exec i s = .next s := by
  rw [exec_of_faultIn_none (Instr.faultIn_draw_eq_none hv hi), Instr.effect_draw_of_inverted h hi]

/-- Settles O39, from the bounds of a clip: no draw has an effect through an inverted one. -/
theorem tileMeetsWhenSomePixelIsInside : Obligations.TileMeetsWhenSomePixelIsInside := by
  refine fun c => ⟨insideClip_eq_true c, fun h X Y => inClip_of_inverted h X Y, fun h s cat => ⟨fun t ht => ?_, fun hv =>
    ⟨exec_draw_of_inverted h (.tmd cat) hv, exec_draw_of_inverted h .spd hv, exec_draw_of_inverted h .rfr hv⟩⟩,
    fun t _ => tileMeets_iff_exists_inside t c⟩
  rcases ht with ht | ht | ht
  · exact exec_draw_fb_of_inverted h (.tmd cat) ht
  · exact exec_draw_fb_of_inverted h .spd ht
  · exact exec_draw_fb_of_inverted h .rfr ht

end Sys2Proof.Machine
end

section
/-!
SUPPORT. What TMD leaves: the statements of 42_tilemap.md about one tilemap draw and about two.
-/

namespace Sys2Proof.Machine

/-! ## Pixels outside the clip (42_tilemap.md R147) -/

theorem pixel_refresh (s : State) (t X Y : Nat) : (s.refresh t).pixel X Y = s.pixel X Y := by
  rw [refresh_eq]
  rfl

theorem pixel_blitTile_outside {c : Clip} {X Y : Nat} (h : insideClip c X Y = false) (s : State) (t : Nat)
    (d : DecodedTile) : (s.blitTile c t d).pixel X Y = s.pixel X Y := by
  simp [State.pixel, State.blitTile, readPixel_blit, h]

theorem pixel_drawTile_outside {c : Clip} {X Y : Nat} (h : insideClip c X Y = false) (cat : Category) (s : State)
    (t : Nat) : (drawTile cat c s t).pixel X Y = s.pixel X Y := by
  unfold drawTile
  split
  · rw [pixel_blitTile_outside h, pixel_refresh]
  · exact pixel_refresh s t X Y

/-- The tilemap draw leaves the pixels outside the clip, whatever the cache holds. -/
theorem pixel_drawTilemap_outside {c : Clip} {X Y : Nat} (h : insideClip c X Y = false) (cat : Category) (s : State) :
    (drawTilemap cat c s).pixel X Y = s.pixel X Y := by
  unfold drawTilemap
  induction tilesMeeting c generalizing s with
  | nil => rfl
  | cons t tiles ih => exact (ih (drawTile cat c s t)).trans (pixel_drawTile_outside h cat s t)

/-! ## TMD -/

/-- With a built palette TMD completes with its draw. -/
theorem exec_tmd_of_built {s : State} (hv : s.penValid = true) (cat : Category) (c : Clip) :
    exec (.tmd cat c) s = .next (drawTilemap cat c s) :=
  exec_of_faultIn_none (Instr.faultIn_draw_eq_none hv (.tmd cat))

/-- Settles O40, by the frame, the dirty bits and the outside pixels of the draw. -/
theorem tmdCleansMeetingTilesOnly : Obligations.TmdCleansMeetingTilesOnly := fun s cat c hv =>
  ⟨_, exec_tmd_of_built hv cat c, drawTilemap_eq cat c s,
    fun a ha => by rw [isDirty_drawTilemap]; simp only [ha, true_and],
    fun _ _ _ _ h => pixel_drawTilemap_outside h cat s⟩

/-- Settles O41, by the pixels of the draw. -/
theorem tmdDrawsTilesOfTheCategory : Obligations.TmdDrawsTilesOfTheCategory := fun _ cat c hv hs =>
  ⟨_, exec_tmd_of_built hv cat c, drawTilemap_coherent hs,
    fun _ _ hX hY => pixel_drawTilemap hs (Nat.lt_succ_of_le hX) (Nat.lt_succ_of_le hY)⟩

/-- A tile has one of the two categories, so one of two passes with the same clip draws it and the other leaves it. -/
theorem pixel_drawTilemap_both {c : Clip} {s : State} {X Y : Nat} (hs : s.CacheCoherent) (hX : X < 256) (hY : Y < 256) :
    (drawTilemap .above c (drawTilemap .below c s)).pixel X Y =
      if insideClip c X Y = true then s.background X Y else s.pixel X Y := by
  rw [pixel_drawTilemap (drawTilemap_coherent hs) hX hY, pixel_drawTilemap hs hX hY, drawTilemap_tileAt,
    drawTilemap_background]
  cases (s.tileAt (tileCovering X Y)).priorityCategory <;> simp

/-- Settles O42: TMD leaves penValid and the cache invariant, so the second pass completes as the first. -/
theorem bothPassesCoverTheClip : Obligations.BothPassesCoverTheClip := fun s c hv hs =>
  ⟨_, _, exec_tmd_of_built hv .below c, exec_tmd_of_built ((drawTilemap_penValid .below c s).trans hv) .above c,
    fun _ _ hX hY => pixel_drawTilemap_both hs (Nat.lt_succ_of_le hX) (Nat.lt_succ_of_le hY)⟩

end Sys2Proof.Machine
end

section
/-!
SUPPORT. The machine with dirty bits and cache simulates the reference without them (42_tilemap.md R149): from states that
differ at most in the hidden state, the machine's one coherent, every part of a step leads to such states again.
-/

namespace Sys2Proof.Machine

/-! ## States that differ in the hidden state alone -/

/-- The state with other dirty bits and another cache. -/
def State.withHidden (s : State) (dirty : Store Bool) (cache : Store DecodedTile) : State :=
  { s with dirty := dirty, cache := cache }

theorem State.sameButHidden_withHidden (s : State) (dirty : Store Bool) (cache : Store DecodedTile) :
    s.SameButHidden (s.withHidden dirty cache) := rfl

theorem State.SameButHidden.eq_withHidden {r s : State} (h : r.SameButHidden s) :
    s = r.withHidden s.dirty s.cache := h

/-- What commutes with a change of the hidden state, or replaces it, keeps two states the same but for it. -/
theorem State.SameButHidden.map {f : State → State} {r s : State} (h : r.SameButHidden s)
    (hf : ∀ dirty cache, (f r).SameButHidden (f (r.withHidden dirty cache))) : (f r).SameButHidden (f s) := by
  rw [h.eq_withHidden]
  exact hf s.dirty s.cache

theorem State.SameButHidden.tileAt {r s : State} (h : r.SameButHidden s) (t : Nat) : s.tileAt t = r.tileAt t := by
  rw [h.eq_withHidden]
  rfl

/-! ## The draws -/

theorem State.SameButHidden.refresh {r s : State} (h : r.SameButHidden s) (t : Nat) : r.SameButHidden (s.refresh t) := by
  rw [refresh_eq, h.eq_withHidden]
  rfl

/-- Refresh returns the decode the reference makes, so both blit the same block or none. -/
theorem drawTile_sameButHidden {r s : State} (h : r.SameButHidden s) (hs : s.CacheCoherent) (cat : Category) (c : Clip)
    {t : Nat} (ht : t < 1024) : (drawTileFresh cat c r t).SameButHidden (drawTile cat c s t) := by
  unfold drawTile drawTileFresh
  rw [cachedTile_refresh_self hs ht, h.tileAt]
  split
  · exact (h.refresh t).map (f := (State.blitTile · c t (r.tileAt t))) fun _ _ => rfl
  · exact h.refresh t

theorem foldl_drawTile_sameButHidden (cat : Category) (c : Clip) (tiles : List Nat) (htiles : ∀ t ∈ tiles, t < 1024)
    {r s : State} (h : r.SameButHidden s) (hs : s.CacheCoherent) :
    (tiles.foldl (drawTileFresh cat c) r).SameButHidden (tiles.foldl (drawTile cat c) s) := by
  induction tiles generalizing r s with
  | nil => exact h
  | cons t tiles ih =>
    obtain ⟨ht, htiles⟩ := List.forall_mem_cons.mp htiles
    exact ih htiles (drawTile_sameButHidden h hs cat c ht) (drawTile_coherent hs)

theorem drawTilemap_sameButHidden {r s : State} (h : r.SameButHidden s) (hs : s.CacheCoherent) (cat : Category)
    (c : Clip) : (drawTilemapFresh cat c r).SameButHidden (drawTilemap cat c s) :=
  foldl_drawTile_sameButHidden cat c _ (fun _ ht => (mem_tilesMeeting.mp ht).1) h hs

theorem drawSprites_withHidden (c : Clip) (s : State) (dirty : Store Bool) (cache : Store DecodedTile) :
    drawSprites c (s.withHidden dirty cache) = (drawSprites c s).withHidden dirty cache :=
  List.foldl_hom (State.withHidden · dirty cache) (fun _ _ => rfl)

theorem drawSprites_sameButHidden {r s : State} (h : r.SameButHidden s) (c : Clip) :
    (drawSprites c r).SameButHidden (drawSprites c s) :=
  h.map fun dirty cache => by
    rw [drawSprites_withHidden]
    exact State.sameButHidden_withHidden _ dirty cache

/-! ## One command -/

/-- The three passes of an enabled frame of the reference. -/
def renderFrameFresh (c : Clip) (s : State) : State :=
  drawTilemapFresh .above c (drawSprites c (drawTilemapFresh .below c s))

theorem renderFrame_sameButHidden {r s : State} (h : r.SameButHidden s) (hs : s.CacheCoherent) (c : Clip) :
    (renderFrameFresh c r).SameButHidden (renderFrame c s) :=
  drawTilemap_sameButHidden (drawSprites_sameButHidden (drawTilemap_sameButHidden h hs .below c) c)
    (drawSprites_coherent (drawTilemap_coherent hs)) .above c

/-- The state a command of the reference leaves when its checks find no fault. -/
def Instr.effectFresh (s : State) : Instr → State
  | .tmd cat c => drawTilemapFresh cat c s
  | .rfr c => if s.videoEnable then renderFrameFresh c s else s
  | i => Instr.effect s i

/-- The reference makes the checks of the machine and differs in the effect alone. -/
theorem execFresh_eq (i : Instr) (s : State) :
    execFresh i s = .next (s.faultOr (Instr.faultIn s i) (Instr.effectFresh s i)) := by
  cases i with
  | tmd cat c => exact whenPaletteBuilt_next ..
  | rfr c => exact whenPaletteBuilt_next ..
  | _ => simp only [execFresh, exec_eq, Instr.effectFresh]

theorem Instr.faultIn_sameButHidden {r s : State} (h : r.SameButHidden s) (i : Instr) :
    Instr.faultIn s i = Instr.faultIn r i := by
  rw [h.eq_withHidden]
  cases i <;> rfl

theorem Instr.effect_sameButHidden {r s : State} (h : r.SameButHidden s) (hs : s.CacheCoherent) (i : Instr) :
    (Instr.effectFresh r i).SameButHidden (Instr.effect s i) := by
  cases i with
  | tmd cat c => exact drawTilemap_sameButHidden h hs cat c
  | rfr c =>
    have hv : s.videoEnable = r.videoEnable := by
      rw [h.eq_withHidden]
      rfl
    simp only [Instr.effect, Instr.effectFresh, hv]
    split
    · exact renderFrame_sameButHidden h hs c
    · exact h
  | spd c => exact drawSprites_sameButHidden h c
  | _ => exact h.map (f := (Instr.effect · _)) fun _ _ => rfl

theorem takeFault_sameButHidden {r s : State} (h : r.SameButHidden s) (f : Fault) :
    (r.takeFault f).SameButHidden (s.takeFault f) :=
  h.map (f := (State.takeFault · f)) fun _ _ => rfl

/-! ## One step -/

theorem stepFresh_of_pending_nil {s : State} (h : s.pending = []) : stepFresh s = .next s := by
  simp [stepFresh, State.takeCommand, h]

theorem stepFresh_of_command {s : State} {w : CommandWord} {rest : List CommandWord} {i : Instr}
    (h : s.pending = w :: rest) (hd : decode w = .command i) : stepFresh s = execFresh i { s with pending := rest } := by
  simp [stepFresh, State.takeCommand, h, hd]

theorem stepFresh_of_illegal {s : State} {w : CommandWord} {rest : List CommandWord} {why : Illegal}
    (h : s.pending = w :: rest) (hd : decode w = .illegal why) :
    stepFresh s = .next (State.takeFault { s with pending := rest } (.illegalCommand w)) := by
  simp [stepFresh, State.takeCommand, h, hd, raise]

/-- Two outcomes in which both machines go on, in states the same but for the hidden state, the machine's coherent. -/
def SimulatedBy (machine reference : Host.Outcome State Fault Refusal) : Prop :=
  ∃ t u : State, machine = .next t ∧ reference = .next u ∧ u.SameButHidden t ∧ t.CacheCoherent

theorem takeFault_coherent {s : State} (hs : s.CacheCoherent) (f : Fault) : (s.takeFault f).CacheCoherent :=
  (coherent_congr (s := s) rfl rfl rfl rfl rfl).mpr hs

theorem takeFault_simulated {r s : State} (h : r.SameButHidden s) (hs : s.CacheCoherent) (f : Fault) :
    SimulatedBy (.next (s.takeFault f)) (.next (r.takeFault f)) :=
  ⟨_, _, rfl, rfl, takeFault_sameButHidden h f, takeFault_coherent hs f⟩

theorem exec_simulated {r s : State} (h : r.SameButHidden s) (hs : s.CacheCoherent) (i : Instr) :
    SimulatedBy (exec i s) (execFresh i r) := by
  rw [exec_eq, execFresh_eq, Instr.faultIn_sameButHidden h]
  cases Instr.faultIn r i with
  | none => exact ⟨_, _, rfl, rfl, Instr.effect_sameButHidden h hs i, Instr.effect_coherent i hs⟩
  | some f => exact takeFault_simulated h hs f

theorem step_simulated {r s : State} (h : r.SameButHidden s) (hs : s.CacheCoherent) :
    SimulatedBy (step s) (stepFresh r) := by
  have hp : s.pending = r.pending := by
    rw [h.eq_withHidden]
    rfl
  cases hr : r.pending with
  | nil => exact ⟨s, r, step_of_pending_nil (hp.trans hr), stepFresh_of_pending_nil hr, h, hs⟩
  | cons w rest =>
    have h' : State.SameButHidden { r with pending := rest } { s with pending := rest } :=
      h.map (f := fun s => { s with pending := rest }) fun _ _ => rfl
    have hs' : State.CacheCoherent { s with pending := rest } :=
      (coherent_congr (s := s) rfl rfl rfl rfl rfl).mpr hs
    rw [step_of_pending_cons (hp.trans hr)]
    cases hd : decode w with
    | command i =>
      rw [runWord_of_command hd, stepFresh_of_command hr hd]
      exact exec_simulated h' hs' i
    | illegal why =>
      rw [runWord_of_illegal hd, stepFresh_of_illegal hr hd]
      exact takeFault_simulated h' hs' (.illegalCommand w)

/-! ## A run -/

theorem run_succ_of_next {M : Host.Core} {s t : M.State} (h : M.step s = .next t) (n : Nat) :
    M.run (n + 1) s = M.run n t := by
  simp only [Host.Core.run, h]

theorem run_simulated (n : Nat) {r s : State} (h : r.SameButHidden s) (hs : s.CacheCoherent) :
    SimulatedBy (Host.Core.run core n s) (Host.Core.run coreFresh n r) := by
  induction n generalizing r s with
  | zero => exact ⟨s, r, rfl, rfl, h, hs⟩
  | succ n ih =>
    obtain ⟨t, u, ht, hu, h', hs'⟩ := step_simulated h hs
    have hrun : Host.Core.run core (n + 1) s = Host.Core.run core n t := run_succ_of_next (M := core) ht n
    have hrun' : Host.Core.run coreFresh (n + 1) r = Host.Core.run coreFresh n u :=
      run_succ_of_next (M := coreFresh) hu n
    rw [hrun, hrun']
    exact ih h' hs'

/-- Settles O43: both machines start in one state, and every step keeps them the same but for the hidden state. -/
theorem dirtyTrackingEquivalence : Obligations.DirtyTrackingEquivalence := by
  intro n s hs
  obtain ⟨t, u, ht, hu, h, -⟩ := run_simulated n (State.sameButHidden_withHidden s s.dirty s.cache) hs
  exact ⟨t, u, ht, hu, h⟩

end Sys2Proof.Machine
end

section
/-!
SUPPORT. The statements of 43_sprites.md: the writes to the sprite tables, the sprite of a slot, the order of the slots,
and what SPD leaves in each pixel.
-/

namespace Sys2Proof.Machine

/-! ## SWP and SWS (43_sprites.md R160, R161) -/

theorem readSP_writeSP (s : State) (off : Nat) (val : Byte) (a : Nat) :
    (s.writeSP off val).readSP a = if a = off then val else s.readSP a :=
  Store.read_write unwrittenByte s.sprPrimary off val a

theorem readSS_writeSS (s : State) (off : Nat) (val : Byte) (a : Nat) :
    (s.writeSS off val).readSS a = if a = off then val else s.readSS a :=
  Store.read_write unwrittenByte s.sprSecondary off val a

/-- Settles O35, by the outcome of SWP's one check. -/
theorem swpStoresOneByte : Obligations.SwpStoresOneByte := fun s off val =>
  ⟨fun hoff => ⟨_, exec_of_faultIn_none (i := .swp off val) (spaceFault_eq_none_iff.mpr (by omega)), rfl,
    readSP_writeSP s off val⟩,
    fun hoff => exec_of_faultIn_some (i := .swp off val) (spaceFault_of_ge hoff)⟩

/-- Settles O36, by the outcome of SWS's one check. -/
theorem swsStoresOneByte : Obligations.SwsStoresOneByte := fun s off val =>
  ⟨fun hoff => ⟨_, exec_of_faultIn_none (i := .sws off val) (spaceFault_eq_none_iff.mpr (by omega)), rfl,
    readSS_writeSS s off val⟩,
    fun hoff => exec_of_faultIn_some (i := .sws off val) (spaceFault_of_ge hoff)⟩

/-! ## The sprite of a slot (43_sprites.md R163) -/

/-- The row is computed in the integers from one byte, so it is 241 less 0..255. -/
theorem spriteAt_y_bounds (s : State) (o : Nat) : -14 ≤ (s.spriteAt o).y ∧ (s.spriteAt o).y ≤ 241 := by
  have hbyte := (s.readSS (o + 1)).isLt
  simp only [State.spriteAt, resolveSprite]
  omega

/-- The mask 0x3F keeps the low six bits. -/
theorem spriteAt_colorGroup (s : State) (o : Nat) : (s.spriteAt o).colorGroup = (s.readSS o).toNat % 64 :=
  Nat.and_two_pow_sub_one_eq_mod (s.readSS o).toNat 6

/-- Settles O44: the row and the group are the computed fields, the others are bytes and bits as they stand. -/
theorem spriteOfASlot : Obligations.SpriteOfASlot := fun s o =>
  have ⟨hlow, hhigh⟩ := spriteAt_y_bounds s o
  ⟨rfl, rfl, hlow, hhigh, rfl, spriteAt_colorGroup s o, rfl, rfl⟩

/-! ## The order of the slots (43_sprites.md R165) -/

theorem mem_slotsRising {o : Nat} : o ∈ slotsRising ↔ o ∈ spriteSlots := by
  rw [← spriteSlots_reverse, List.mem_reverse]

/-- The slots are the even offsets from 0x10 to 0x3e: the k-th of them in rising order is 0x10 + 2 * k. -/
theorem mem_spriteSlots {o : Nat} : o ∈ spriteSlots ↔ o % 2 = 0 ∧ 0x10 ≤ o ∧ o ≤ 0x3e := by
  rw [← mem_slotsRising]
  simp only [slotsRising, List.mem_map, List.mem_range]
  constructor
  · rintro ⟨k, hk, rfl⟩
    omega
  · intro ho
    exact ⟨(o - 0x10) / 2, by omega, by omega⟩

theorem slotsRising_pairwise : slotsRising.Pairwise (· < ·) :=
  List.pairwise_lt_range.map _ fun _ _ h => by omega

/-- The draw order is the rising order reversed. -/
theorem spriteSlots_pairwise : spriteSlots.Pairwise (fun a b => b < a) := by
  rw [← List.pairwise_reverse, spriteSlots_reverse]
  exact slotsRising_pairwise

/-- Settles O45, from the same slots in rising order. -/
theorem slotsInDescendingOrder : Obligations.SlotsInDescendingOrder :=
  ⟨fun _ => mem_spriteSlots, rfl, spriteSlots_pairwise⟩

/-! ## The sprite on top (43_sprites.md R167) -/

/-- Where no slot shows a pen, the sprite layer has none. -/
theorem topSprite_eq_none {s : State} {x y : Nat} (h : ∀ o ∈ spriteSlots, s.spriteShows o x y = none) :
    s.topSprite x y = none :=
  List.findSome?_eq_none_iff.mpr fun o ho => h o (mem_slotsRising.mp ho)

/-- The least slot that shows a pen gives that of the sprite layer: the slots searched before it are smaller. -/
theorem topSprite_eq_some {s : State} {x y o : Nat} {pen : Pen} (ho : o ∈ spriteSlots)
    (hpen : s.spriteShows o x y = some pen)
    (hleast : ∀ o' ∈ spriteSlots, o' < o → s.spriteShows o' x y = none) : s.topSprite x y = some pen := by
  obtain ⟨before, after, hsplit⟩ := List.append_of_mem (mem_slotsRising.mpr ho)
  obtain ⟨-, -, hlt⟩ := List.pairwise_append.mp (hsplit ▸ slotsRising_pairwise)
  have hbefore : ∀ o' ∈ before, s.spriteShows o' x y = none := fun o' ho' =>
    hleast o' (mem_slotsRising.mp (hsplit ▸ List.mem_append_left _ ho')) (hlt o' ho' o List.mem_cons_self)
  exact List.findSome?_eq_some_iff.mpr ⟨before, o, after, hsplit, hpen, hbefore⟩

/-- In its cell a sprite shows what it paints there. -/
theorem spriteShows_of_cell {s : State} {o X Y dx dy : Nat} (hX : X = (s.spriteAt o).x + dx)
    (hY : (Y : Int) = (s.spriteAt o).y + dy) (hdx : dx < s.board.spriteW) (hdy : dy < s.board.spriteH) :
    s.spriteShows o X Y = spritePaint s.board (s.spriteAt o) dx dy := by
  have hcolumn : X - (s.spriteAt o).x = dx := by omega
  have hrow : ((Y : Int) - (s.spriteAt o).y).toNat = dy := by omega
  rw [State.spriteShows, if_pos (by omega), hcolumn, hrow]

theorem spritePaint_of_opaque {b : Board} {p : Sprite} {dx dy : Nat} (h : spriteValue b p dx dy ≠ 0#2) :
    spritePaint b p dx dy = some (BitVec.ofNat 9 (spritePen p (spriteValue b p dx dy))) := if_neg h

/-- The group of a slot has six bits, so its pens are at most 383 and fit the nine bits of a pen. -/
theorem toNat_ofNat_spritePen (s : State) (o : Nat) (pix : Pixel) :
    (BitVec.ofNat 9 (spritePen (s.spriteAt o) pix)).toNat = spritePen (s.spriteAt o) pix := by
  have hpix := pix.isLt
  rw [BitVec.toNat_ofNat, spritePen, spriteAt_colorGroup]
  omega

/-! ## SPD (43_sprites.md R166, R167) -/

/-- With a built palette SPD completes with its draw. -/
theorem exec_spd_of_built {s : State} (hv : s.penValid = true) (c : Clip) :
    exec (.spd c) s = .next (drawSprites c s) :=
  exec_of_faultIn_none (Instr.faultIn_draw_eq_none hv .spd)

/-- Settles O46: a pixel of the draw is that of the sprite layer, which is the least opaque slot's or none. -/
theorem spdLowestOpaqueSlotWins : Obligations.SpdLowestOpaqueSlotWins := by
  refine fun s c hv => ⟨_, exec_spd_of_built hv c, drawSprites_eq c s, fun X Y _ _ =>
    ⟨fun hout => ?_, fun hin hnone => ?_, ?_⟩⟩
  · simp [pixel_drawSprites, hout]
  · simp [pixel_drawSprites, hin, topSprite_eq_none hnone]
  · rintro hin o ho _ rfl dx dy hX hY hdx hdy _ rfl hopaque hleast
    have hshows := (spriteShows_of_cell hX hY hdx hdy).trans (spritePaint_of_opaque hopaque)
    rw [pixel_drawSprites, if_pos hin, topSprite_eq_some ho hshows hleast, Option.getD_some, toNat_ofNat_spritePen]
    rfl

end Sys2Proof.Machine
end

section
/-!
SUPPORT. The statements of 44_frame.md about the flags and the raster line: VEN, FLP and RSL. No part of a step reads
flipScreen, so every part carries another value of it along.
-/

namespace Sys2Proof.Machine

/-! ## VEN and RSL (44_frame.md R182, R184) -/

/-- Settles O48: VEN makes no check, and its effect is the latch. -/
theorem venLatchesVideoEnable : Obligations.VenLatchesVideoEnable := fun _ f =>
  exec_of_faultIn_none (i := .ven f) rfl

/-- Settles O50: RSL makes no check, and its effect is one answer of the oracle. -/
theorem rslRespondsWithAFreeValue : Obligations.RslRespondsWithAFreeValue := fun s =>
  ⟨s.scanline, exec_of_faultIn_none (i := .rsl) rfl⟩

/-! ## What a draw leaves -/

/-- The state t is s but for FB and the hidden state, as a draw leaves it (10_state.md R28). -/
def State.DrawnFrom (s t : State) : Prop := t = { s with fb := t.fb, dirty := t.dirty, cache := t.cache }

theorem State.DrawnFrom.trans {s t u : State} (h : s.DrawnFrom t) (h' : t.DrawnFrom u) : s.DrawnFrom u :=
  Eq.trans h' (by rw [h])

theorem drawTilemap_drawnFrom (cat : Category) (c : Clip) (s : State) : s.DrawnFrom (drawTilemap cat c s) :=
  drawTilemap_eq cat c s

theorem drawSprites_drawnFrom (c : Clip) (s : State) : s.DrawnFrom (drawSprites c s) :=
  (drawSprites_eq c s).trans (by simp)

/-- A frame changes nothing but FB and the hidden state (44_frame.md R187). -/
theorem renderFrame_drawnFrom (c : Clip) (s : State) : s.DrawnFrom (renderFrame c s) :=
  ((drawTilemap_drawnFrom .below c s).trans (drawSprites_drawnFrom c _)).trans (drawTilemap_drawnFrom .above c _)

/-! ## FLP (44_frame.md R183) -/

theorem setFlipScreen_sameDraws (s : State) (f : Bool) : s.SameDraws (s.setFlipScreen f) where
  tiles := ⟨rfl, rfl, rfl, rfl, rfl, rfl, rfl⟩
  spriteW := rfl
  spriteH := rfl
  spriteGfx := rfl
  slots _ _ := rfl
  penValid := rfl
  videoEnable := rfl
  responses := rfl

/-- A draw that leaves the same FB and hidden state with another flipScreen answers the same state, flipScreen apart. -/
theorem State.DrawnFrom.setFlipScreen {s t u : State} {f : Bool} (ht : s.DrawnFrom t)
    (hu : (s.setFlipScreen f).DrawnFrom u) (h : t.SameDraws u) : u = t.setFlipScreen f := by
  rw [hu, h.tiles.fb, h.tiles.dirty, h.tiles.cache]
  exact congrArg (State.setFlipScreen · f) ht.symm

theorem renderFrame_setFlipScreen (c : Clip) (s : State) (f : Bool) :
    renderFrame c (s.setFlipScreen f) = (renderFrame c s).setFlipScreen f :=
  (renderFrame_drawnFrom c s).setFlipScreen (renderFrame_drawnFrom c _)
    (renderFrame_sameDraws (setFlipScreen_sameDraws s f) c)

/-- FLP overwrites the flag, every other effect carries it along. -/
theorem Instr.effect_setFlipScreen (s : State) (f : Bool) (i : Instr) :
    ∃ g, Instr.effect (s.setFlipScreen f) i = (Instr.effect s i).setFlipScreen g := by
  cases i with
  | flp g => exact ⟨g, rfl⟩
  | rfr c =>
    refine ⟨f, ?_⟩
    simp only [Instr.effect, renderFrame_setFlipScreen, apply_ite (State.setFlipScreen · f)]
    rfl
  | tmd cat c =>
    exact ⟨f, (drawTilemap_drawnFrom cat c s).setFlipScreen (drawTilemap_drawnFrom cat c _)
      (drawTilemap_sameDraws (setFlipScreen_sameDraws s f) cat c)⟩
  | spd c =>
    exact ⟨f, (drawSprites_drawnFrom c s).setFlipScreen (drawSprites_drawnFrom c _)
      (drawSprites_sameDraws (setFlipScreen_sameDraws s f) c)⟩
  | _ => exact ⟨f, rfl⟩

theorem Instr.faultIn_setFlipScreen (s : State) (f : Bool) (i : Instr) :
    Instr.faultIn (s.setFlipScreen f) i = Instr.faultIn s i := by
  cases i <;> rfl

theorem runWord_setFlipScreen (w : CommandWord) (s : State) (f : Bool) :
    ∃ t g, runWord w s = .next t ∧ runWord w (s.setFlipScreen f) = .next (t.setFlipScreen g) := by
  cases hd : decode w with
  | illegal why => exact ⟨_, f, runWord_of_illegal hd s, runWord_of_illegal hd _⟩
  | command i =>
    obtain ⟨g, hg⟩ := Instr.effect_setFlipScreen s f i
    simp only [runWord_of_command hd, exec_eq, Instr.faultIn_setFlipScreen, hg]
    cases Instr.faultIn s i with
    | none => exact ⟨_, g, rfl, rfl⟩
    | some fault => exact ⟨_, f, rfl, rfl⟩

theorem step_setFlipScreen (s : State) (f : Bool) :
    ∃ t g, step s = .next t ∧ step (s.setFlipScreen f) = .next (t.setFlipScreen g) := by
  cases hp : s.pending with
  | nil => exact ⟨s, f, step_of_pending_nil hp, step_of_pending_nil hp⟩
  | cons w rest =>
    rw [step_of_pending_cons hp, step_of_pending_cons (s := s.setFlipScreen f) hp]
    exact runWord_setFlipScreen w { s with pending := rest } f

/-- Settles O49: FLP makes no check and its effect is the latch; a step answers the same state whatever the flag is. -/
theorem flpLatchesAFlagNothingReads : Obligations.FlpLatchesAFlagNothingReads := by
  refine ⟨fun _ f => exec_of_faultIn_none (i := .flp f) rfl, fun s f => ?_⟩
  obtain ⟨t, g, ht, hu⟩ := step_setFlipScreen s f
  exact ⟨t, t.setFlipScreen g, ht, hu, rfl⟩

end Sys2Proof.Machine
end

section
/-!
SUPPORT. The statements of 44_frame.md about RFR: its check and its gate, what its three passes leave in each pixel, and
what that depends on.
-/

namespace Sys2Proof.Machine

/-! ## The check, the gate and the passes (44_frame.md R185, R186) -/

/-- Without a built palette a draw finds the one fault a draw can have (60_exceptions.md R203). -/
theorem Instr.faultIn_draw_of_not_built {s : State} (hv : s.penValid = false) {i : Instr} {c : Clip}
    (hi : DrawsThrough c i) : Instr.faultIn s i = some .paletteNotBuilt := by
  cases hi <;> simp [Instr.faultIn, State.paletteFault, hv]

/-- With a built palette and video enabled RFR completes with its three passes. -/
theorem exec_rfr_of_enabled {s : State} (hv : s.penValid = true) (he : s.videoEnable = true) (c : Clip) :
    exec (.rfr c) s = .next (renderFrame c s) := by
  rw [exec_of_faultIn_none (Instr.faultIn_draw_eq_none hv .rfr), Instr.effect, if_pos he]

/-- Settles O51: past the check the gate is closed. -/
theorem disabledFrameWritesNothing : Obligations.DisabledFrameWritesNothing := fun s c hv he => by
  rw [exec_of_faultIn_none (Instr.faultIn_draw_eq_none hv .rfr), Instr.effect, if_neg (Bool.eq_false_iff.mp he)]

/-- Settles O52: no pass writes penValid, so TMD, SPD and TMD complete one after the other. -/
theorem frameIsThreePassesInOrder : Obligations.FrameIsThreePassesInOrder := fun s c =>
  ⟨fun hv => exec_of_faultIn_some (Instr.faultIn_draw_of_not_built hv .rfr), disabledFrameWritesNothing s c,
    fun hv he =>
      have hv1 : (drawTilemap .below c s).penValid = true := (drawTilemap_penValid .below c s).trans hv
      have hv2 : (drawSprites c (drawTilemap .below c s)).penValid = true := (drawSprites_penValid c _).trans hv1
      ⟨_, _, _, exec_tmd_of_built hv .below c, exec_spd_of_built hv1 c, exec_tmd_of_built hv2 .above c,
        exec_rfr_of_enabled hv he c⟩⟩

/-! ## The pixels of a frame (44_frame.md R187, R188) -/

/-- The pixels of a frame: the last pass covers the tiles of category 1, the first lies under the sprites elsewhere. -/
theorem pixel_renderFrame {c : Clip} {s : State} {X Y : Nat} (hs : s.CacheCoherent) (hX : X < 256) (hY : Y < 256) :
    (renderFrame c s).pixel X Y = if insideClip c X Y = true then s.mux X Y else s.pixel X Y := by
  have hs2 := drawSprites_coherent (c := c) (drawTilemap_coherent (cat := .below) (c := c) hs)
  rw [renderFrame, pixel_drawTilemap hs2 hX hY, pixel_drawSprites, pixel_drawTilemap hs hX hY, State.mux]
  by_cases hc : insideClip c X Y = true
  · cases hcat : (s.tileAt (tileCovering X Y)).priorityCategory <;> simp [hc, hcat]
  · simp [hc]

/-- Settles O53, by the frame and the pixels of the three passes. -/
theorem frameIsThePriorityMux : Obligations.FrameIsThePriorityMux := fun s c hv he hs =>
  ⟨_, exec_rfr_of_enabled hv he c, renderFrame_drawnFrom c s,
    fun _ _ hX hY => pixel_renderFrame hs (Nat.lt_succ_of_le hX) (Nat.lt_succ_of_le hY)⟩

theorem tileAt_colorGroup_le (s : State) (t : Nat) : (s.tileAt t).colorGroup ≤ 31 := by
  unfold State.tileAt decodeTile
  cases s.board.variant with
  | A => exact decodeA_colorGroup_le _ _
  | B => exact decodeB_colorGroup_le _ _

/-- A tile shows a character pen, 0..127 (44_frame.md R190). -/
theorem background_le (s : State) (x y : Nat) : (s.background x y).toNat ≤ 127 :=
  (Nat.mod_le _ _).trans (tilePen_le (tileAt_colorGroup_le s _) (x % 8) (y % 8))

theorem mux_of_above {s : State} {x y : Nat} (h : (s.tileAt (tileCovering x y)).priorityCategory = .above) :
    s.mux x y = s.background x y := if_pos h

/-- Settles O54: over a category-1 tile Mux is the tile's own pen, which is below 128. -/
theorem spritePensOnlyOverCategoryZero : Obligations.SpritePensOnlyOverCategoryZero := by
  refine fun s c hv he hs => ⟨_, exec_rfr_of_enabled hv he c, fun X Y hX hY hin hpen => ?_⟩
  rw [pixel_renderFrame hs (Nat.lt_succ_of_le hX) (Nat.lt_succ_of_le hY), if_pos hin] at hpen
  cases hcat : (s.tileAt (tileCovering X Y)).priorityCategory with
  | below => exact hcat
  | above =>
    have htile := background_le s X Y
    rw [mux_of_above hcat] at hpen
    omega

/-! ## The pens of each draw (44_frame.md R190) -/

/-- A pen a sprite can draw: 129..383, and not the first of its group of four. -/
def IsSpritePen (p : Pen) : Prop := 129 ≤ p.toNat ∧ p.toNat ≤ 383 ∧ p.toNat % 4 ≠ 0

/-- Pixel value 0 is transparent, so a sprite paints none of the first pens. -/
theorem spritePaint_isSpritePen {s : State} {o dx dy : Nat} {p : Pen}
    (h : spritePaint s.board (s.spriteAt o) dx dy = some p) : IsSpritePen p := by
  by_cases hopaque : spriteValue s.board (s.spriteAt o) dx dy = 0#2
  · simp [spritePaint, hopaque] at h
  · rw [spritePaint_of_opaque hopaque, Option.some.injEq] at h
    have hpos : (spriteValue s.board (s.spriteAt o) dx dy).toNat ≠ 0 := fun h0 => hopaque (BitVec.eq_of_toNat_eq h0)
    have hlt := (spriteValue s.board (s.spriteAt o) dx dy).isLt
    rw [← h, IsSpritePen, toNat_ofNat_spritePen, spritePen, spriteAt_colorGroup]
    omega

theorem spriteShows_isSpritePen {s : State} {o x y : Nat} {p : Pen} (h : s.spriteShows o x y = some p) :
    IsSpritePen p := by
  unfold State.spriteShows at h
  split at h
  · exact spritePaint_isSpritePen h
  · contradiction

theorem topSprite_isSpritePen {s : State} {x y : Nat} {p : Pen} (h : s.topSprite x y = some p) : IsSpritePen p :=
  have ⟨_, _, hshows⟩ := List.exists_of_findSome?_eq_some h
  spriteShows_isSpritePen hshows

/-- The sprite layer over a pixel: that pixel, or a sprite's pen. -/
theorem topSprite_getD_cases (s : State) (x y : Nat) (under : Pen) :
    (s.topSprite x y).getD under = under ∨ IsSpritePen ((s.topSprite x y).getD under) := by
  cases h : s.topSprite x y with
  | none => exact .inl rfl
  | some p => exact .inr (topSprite_isSpritePen h)

theorem mux_pens (s : State) (x y : Nat) : (s.mux x y).toNat ≤ 127 ∨ IsSpritePen (s.mux x y) := by
  have htile := background_le s x y
  unfold State.mux
  split
  · exact .inl htile
  · exact (topSprite_getD_cases s x y _).imp_left fun h => (congrArg BitVec.toNat h).trans_le htile

theorem pixel_drawTilemap_cases {cat : Category} {c : Clip} {s : State} {X Y : Nat} (hs : s.CacheCoherent)
    (hX : X < 256) (hY : Y < 256) :
    (drawTilemap cat c s).pixel X Y = s.pixel X Y ∨ ((drawTilemap cat c s).pixel X Y).toNat ≤ 127 := by
  rw [pixel_drawTilemap hs hX hY]
  split
  · exact .inr (background_le s X Y)
  · exact .inl rfl

theorem pixel_drawSprites_cases (c : Clip) (s : State) (X Y : Nat) :
    (drawSprites c s).pixel X Y = s.pixel X Y ∨ IsSpritePen ((drawSprites c s).pixel X Y) := by
  rw [pixel_drawSprites]
  split
  · exact topSprite_getD_cases s X Y (s.pixel X Y)
  · exact .inl rfl

theorem pixel_renderFrame_cases {c : Clip} {s : State} {X Y : Nat} (hs : s.CacheCoherent) (hX : X < 256)
    (hY : Y < 256) :
    (renderFrame c s).pixel X Y = s.pixel X Y ∨ ((renderFrame c s).pixel X Y).toNat ≤ 127 ∨
      IsSpritePen ((renderFrame c s).pixel X Y) := by
  rw [pixel_renderFrame hs hX hY]
  split
  · exact .inr (mux_pens s X Y)
  · exact .inl rfl

/-- What a command's effect does to a pixel, if that may be nothing, the command does: its faults leave FB. -/
theorem exec_pixel_cases {i : Instr} {s t : State} {X Y : Nat} {P : Pen → Prop} (h : exec i s = .next t)
    (heffect : (Instr.effect s i).pixel X Y = s.pixel X Y ∨ P ((Instr.effect s i).pixel X Y)) :
    t.pixel X Y = s.pixel X Y ∨ P (t.pixel X Y) := by
  rcases exec_cases h with ⟨f, -, rfl⟩ | ⟨-, rfl⟩
  · exact .inl rfl
  · exact heffect

/-- Settles O57, by the pens of each draw. -/
theorem drawsWriteOnlyTheirPens : Obligations.DrawsWriteOnlyTheirPens := by
  intro s t cat c X Y hs hX hY
  have hX : X < 256 := by omega
  have hY : Y < 256 := by omega
  refine ⟨fun h => exec_pixel_cases (P := fun p => p.toNat ≤ 127) h (pixel_drawTilemap_cases hs hX hY),
    fun h => exec_pixel_cases (P := IsSpritePen) h (pixel_drawSprites_cases c s X Y),
    fun h => exec_pixel_cases (P := fun p => p.toNat ≤ 127 ∨ IsSpritePen p) h ?_⟩
  rcases Instr.effect_rfr_cases s c with he | he <;> rw [he]
  · exact .inl rfl
  · exact pixel_renderFrame_cases hs hX hY

/-! ## What a frame depends on (44_frame.md R191) -/

/-- The two states agree in all that Mux reads: the memories, the variant and the graphics data. -/
structure State.SameScene (s t : State) : Prop where
  variant : t.board.variant = s.board.variant
  spriteW : t.board.spriteW = s.board.spriteW
  spriteH : t.board.spriteH = s.board.spriteH
  charGfx : t.board.charGfx = s.board.charGfx
  spriteGfx : t.board.spriteGfx = s.board.spriteGfx
  tileCode : t.tileCode = s.tileCode
  tileAttr : t.tileAttr = s.tileAttr
  sprPrimary : t.sprPrimary = s.sprPrimary
  sprSecondary : t.sprSecondary = s.sprSecondary

theorem mux_congr {s t : State} (h : s.SameScene t) (x y : Nat) : t.mux x y = s.mux x y := by
  simp only [State.mux, tileAt_congr h.variant h.tileCode h.tileAttr,
    background_congr h.variant h.charGfx h.tileCode h.tileAttr,
    topSprite_congr h.spriteW h.spriteH h.spriteGfx h.sprPrimary h.sprSecondary]

/-- Frames of the same scene agree inside the clip. -/
theorem pixel_renderFrame_congr {c : Clip} {s t : State} {X Y : Nat} (h : s.SameScene t) (hs : s.CacheCoherent)
    (ht : t.CacheCoherent) (hX : X < 256) (hY : Y < 256) (hin : insideClip c X Y = true) :
    (renderFrame c t).pixel X Y = (renderFrame c s).pixel X Y := by
  rw [pixel_renderFrame ht hX hY, pixel_renderFrame hs hX hY, if_pos hin, if_pos hin, mux_congr h]

/-- Settles O56: inside the clip a frame is Mux, which reads the scene alone. -/
theorem frameForgetsThePreviousBuffer : Obligations.FrameForgetsThePreviousBuffer := by
  intro s s' c hv hv' he he' hs hs' hvariant hw hh hchar hsprite hcode hattr hprimary hsecondary
  have hscene : s.SameScene s' := ⟨hvariant, hw, hh, hchar, hsprite, hcode, hattr, hprimary, hsecondary⟩
  exact ⟨_, _, exec_rfr_of_enabled hv he c, exec_rfr_of_enabled hv' he' c, fun _ _ hX hY =>
    pixel_renderFrame_congr hscene hs hs' (Nat.lt_succ_of_le hX) (Nat.lt_succ_of_le hY)⟩

/-! ## Commands between two frames (44_frame.md R189) -/

theorem State.SameScene.trans {s t u : State} (h : s.SameScene t) (h' : t.SameScene u) : s.SameScene u where
  variant := h'.variant.trans h.variant
  spriteW := h'.spriteW.trans h.spriteW
  spriteH := h'.spriteH.trans h.spriteH
  charGfx := h'.charGfx.trans h.charGfx
  spriteGfx := h'.spriteGfx.trans h.spriteGfx
  tileCode := h'.tileCode.trans h.tileCode
  tileAttr := h'.tileAttr.trans h.tileAttr
  sprPrimary := h'.sprPrimary.trans h.sprPrimary
  sprSecondary := h'.sprSecondary.trans h.sprSecondary

theorem State.SameScene.of_board_eq {s t : State} (hb : t.board = s.board) (hc : t.tileCode = s.tileCode)
    (ha : t.tileAttr = s.tileAttr) (hp : t.sprPrimary = s.sprPrimary) (hs : t.sprSecondary = s.sprSecondary) :
    s.SameScene t :=
  ⟨by rw [hb], by rw [hb], by rw [hb], by rw [hb], by rw [hb], hc, ha, hp, hs⟩

theorem exec_board {i : Instr} {s t : State} (h : exec i s = .next t) : t.board = s.board := by
  rcases exec_cases h with ⟨f, -, rfl⟩ | ⟨-, rfl⟩
  · rfl
  · exact Instr.effect_board s i

/-- Only a write command changes the scene (20_memory.md R58). -/
theorem exec_sameScene {i : Instr} {s t : State} (hi : isWrite i = false) (h : exec i s = .next t) :
    s.SameScene t := by
  obtain ⟨-, -, hcode, hattr, hprimary, hsecondary, -⟩ := onlyDrawsWriteTheBuffer i s t h
  refine .of_board_eq (exec_board h) (hcode ?_) (hattr ?_) (hprimary ?_) (hsecondary ?_)
  all_goals
    rintro off val rfl
    contradiction

/-- What a frame needs of the state to be Mux on a canonical buffer. -/
structure State.FrameReady (s : State) : Prop where
  memory : s.MemoryWf
  cache : s.CacheCoherent
  built : s.penValid = true

theorem exec_frameReady {i : Instr} {s t : State} (hs : s.FrameReady) (h : exec i s = .next t) : t.FrameReady := by
  rcases exec_cases h with ⟨f, -, rfl⟩ | ⟨hf, rfl⟩
  · exact ⟨memoryWf_congr (s := s) rfl rfl rfl rfl rfl rfl rfl hs.memory, takeFault_coherent hs.cache f, hs.built⟩
  · exact ⟨Instr.effect_memoryWf hf hs.memory, Instr.effect_coherent i hs.cache, Instr.effect_penValid hs.built i⟩

theorem execAll_cons_of_next {i : Instr} {s t : State} (h : exec i s = .next t) (is : List Instr) :
    execAll (i :: is) s = execAll is t := by
  simp only [execAll, h]

/-- Commands that write no memory lead from a state ready for a frame to one with the same scene. -/
theorem execAll_sameScene {is : List Instr} (his : ∀ i ∈ is, isWrite i = false) {s : State} (hs : s.FrameReady) :
    ∃ t, execAll is s = .next t ∧ t.FrameReady ∧ s.SameScene t := by
  induction is generalizing s with
  | nil => exact ⟨s, rfl, hs, .of_board_eq rfl rfl rfl rfl rfl⟩
  | cons i is ih =>
    obtain ⟨hi, his⟩ := List.forall_mem_cons.mp his
    have hexec := exec_eq i s
    obtain ⟨t, ht, hready, hscene⟩ := ih his (exec_frameReady hs hexec)
    exact ⟨t, (execAll_cons_of_next hexec is).trans ht, hready, (exec_sameScene hi hexec).trans hscene⟩

/-- Two canonical buffers with the same 256 × 256 pixels are the same list. -/
theorem fb_eq_of_pixel_eq {s t : State} (hs : s.MemoryWf) (ht : t.MemoryWf)
    (h : ∀ X Y, X < 256 → Y < 256 → s.pixel X Y = t.pixel X Y) : s.fb = t.fb := by
  refine Buffer.eq_of_readPixel_eq hs.fb ht.fb fun X Y => ?_
  by_cases hXY : X < 256 ∧ Y < 256
  · exact h X Y hXY.1 hXY.2
  · have hout : 256 ≤ X ∨ 256 ≤ Y := by omega
    rw [readPixel_outside hs.fb hout, readPixel_outside ht.fb hout]

/-- Settles O55: the commands between keep the scene, so both frames are the same Mux inside the clip, and the second
leaves what is outside. -/
theorem frameIsReproducible : Obligations.FrameIsReproducible := by
  intro b s c between hinv hv he hbetween
  have hs : s.FrameReady := ⟨hinv.memory, hinv.cache, hv⟩
  have hexec := exec_rfr_of_enabled hv he c
  have ht := exec_frameReady hs hexec
  obtain ⟨u, hu, hready, hscene⟩ := execAll_sameScene hbetween ht
  refine ⟨_, u, hexec, hu, fun hue => ?_⟩
  have hexec' := exec_rfr_of_enabled hready.built hue c
  have hinside : ∀ X Y, X < 256 → Y < 256 → insideClip c X Y = true →
      (renderFrame c u).pixel X Y = (renderFrame c s).pixel X Y := fun X Y =>
    pixel_renderFrame_congr ((exec_sameScene rfl hexec).trans hscene) hs.cache hready.cache
  refine ⟨_, hexec', fun X Y hX hY => hinside X Y (by omega) (by omega), fun houtside => ?_⟩
  refine fb_eq_of_pixel_eq (exec_frameReady hready hexec').memory ht.memory fun X Y hX hY => ?_
  cases hin : insideClip c X Y with
  | true => exact hinside X Y hX hY hin
  | false =>
    calc (renderFrame c u).pixel X Y = u.pixel X Y := by simp [pixel_renderFrame hready.cache hX hY, hin]
      _ = (renderFrame c s).pixel X Y := houtside X Y (by omega) (by omega) hin

end Sys2Proof.Machine
end

section
/-!
SUPPORT. The statements of 60_exceptions.md: which command raises which fault, that a completed command reports none, and
that a fault leaves what the checks read.
-/

namespace Sys2Proof.Machine

/-! ## Which command raises which fault (60_exceptions.md R201 to R203) -/

/-- The faults the checks of a command can find. -/
inductive Instr.Raises : Instr → Fault → Prop
  | pld (colorPromLen lookupLen : Option Nat) : Raises .pld (.configuration colorPromLen lookupLen)
  | prd (pen : Nat) : Raises (.prd pen) (.addressing .PT pen)
  | prdNotBuilt (pen : Nat) : Raises (.prd pen) .paletteNotBuilt
  | twc (off : Nat) (val : Byte) : Raises (.twc off val) (.addressing .TC off)
  | twa (off : Nat) (val : Byte) : Raises (.twa off val) (.addressing .TA off)
  | swp (off : Nat) (val : Byte) : Raises (.swp off val) (.addressing .SP off)
  | sws (off : Nat) (val : Byte) : Raises (.sws off val) (.addressing .SS off)
  | draw {i : Instr} {c : Clip} (hi : DrawsThrough c i) : Raises i .paletteNotBuilt

theorem spaceFault_eq_some {space : Space} {size index : Nat} {f : Fault} (h : spaceFault space size index = some f) :
    f = .addressing space index :=
  (Option.some.inj (Option.ite_none_left_eq_some.mp h).2).symm

theorem paletteFault_eq_some {s : State} {f : Fault} (h : s.paletteFault = some f) : f = .paletteNotBuilt :=
  (Option.some.inj (Option.ite_none_left_eq_some.mp h).2).symm

theorem sizeFault_of_not_sized {b : Board} (h : ¬(b.colorProm.size = 64 ∧ b.lookup.size = 384)) :
    b.sizeFault = some (.configuration (wrongLength 64 b.colorProm.size) (wrongLength 384 b.lookup.size)) := by
  have hsized : ¬b.promsSized = true := by simpa [Board.promsSized] using h
  rw [Board.sizeFault, if_neg hsized]

theorem sizeFault_eq_some {b : Board} {f : Fault} (h : b.sizeFault = some f) :
    f = .configuration (wrongLength 64 b.colorProm.size) (wrongLength 384 b.lookup.size) :=
  (Option.some.inj (Option.ite_none_left_eq_some.mp h).2).symm

theorem Instr.raises_of_faultIn {i : Instr} {s : State} {f : Fault} (h : Instr.faultIn s i = some f) :
    Instr.Raises i f := by
  cases i with
  | pld => exact sizeFault_eq_some h ▸ .pld _ _
  | prd pen =>
    rcases Option.or_eq_some_iff.mp h with hspace | ⟨-, hpalette⟩
    · exact spaceFault_eq_some hspace ▸ .prd pen
    · exact paletteFault_eq_some hpalette ▸ .prdNotBuilt pen
  | twc off val => exact spaceFault_eq_some h ▸ .twc off val
  | twa off val => exact spaceFault_eq_some h ▸ .twa off val
  | swp off val => exact spaceFault_eq_some h ▸ .swp off val
  | sws off val => exact spaceFault_eq_some h ▸ .sws off val
  | ven f => cases h
  | flp f => cases h
  | rsl => cases h
  | rfr c => exact paletteFault_eq_some h ▸ .draw (c := c) .rfr
  | tmd cat c => exact paletteFault_eq_some h ▸ .draw (.tmd (c := c) cat)
  | spd c => exact paletteFault_eq_some h ▸ .draw (c := c) .spd

/-! ## What a command reports (60_exceptions.md R205) -/

/-- An effect reports nothing, or one value of PRD or RSL (30_encoding.md R87). -/
theorem Instr.effect_completedAs (s : State) (i : Instr) : s.CompletedAs (Instr.effect s i) := by
  cases i with
  | prd pen => exact ⟨rfl, .inr ⟨_, rfl, rfl⟩⟩
  | rsl => exact ⟨rfl, .inr ⟨_, rfl, rfl⟩⟩
  | rfr c => rcases Instr.effect_rfr_cases s c with h | h <;> simp [State.CompletedAs, h]
  | _ => simp [State.CompletedAs, Instr.effect]

theorem State.CompletedAs.responses_ne_fault {s t : State} (h : s.CompletedAs t) (f : Fault) :
    t.responses ≠ s.responses ++ [.fault f] := by
  obtain ⟨-, hnone | ⟨r, hr, hone⟩⟩ := h
  · simp [hnone]
  · intro hfault
    have hrf : r = .fault f := by simpa [hone] using hfault
    rw [hrf] at hr
    contradiction

/-- A fault that an execution reports is one its command raises. -/
theorem raises_of_exec_reports {i : Instr} {s t : State} {f : Fault} (h : exec i s = .next t)
    (hr : t.responses = s.responses ++ [.fault f]) : Instr.Raises i f := by
  rcases exec_cases h with ⟨g, hg, rfl⟩ | ⟨-, rfl⟩
  · have hgf : g = f := by simpa using hr
    exact hgf ▸ Instr.raises_of_faultIn hg
  · exact absurd hr ((Instr.effect_completedAs s i).responses_ne_fault f)

/-- The checks read nothing that a fault changes, so they find the same again. -/
theorem Instr.faultIn_takeFault (s : State) (f : Fault) (i : Instr) :
    Instr.faultIn (s.takeFault f) i = Instr.faultIn s i := by
  cases i <;> rfl

/-- With a built palette, only PLD and an index outside its space have something to find (60_exceptions.md R207). -/
theorem Instr.faultIn_eq_none_of_built {s : State} (hv : s.penValid = true) {i : Instr} (hi : i ≠ .pld)
    (hin : indexInSpace i = true) : Instr.faultIn s i = none := by
  cases i with
  | pld => contradiction
  | prd pen => exact Instr.faultIn_prd_eq_none (of_decide_eq_true hin) hv
  | twc off val => exact spaceFault_eq_none_iff.mpr (Nat.lt_succ_of_le (of_decide_eq_true hin))
  | twa off val => exact spaceFault_eq_none_iff.mpr (Nat.lt_succ_of_le (of_decide_eq_true hin))
  | swp off val => exact spaceFault_eq_none_iff.mpr (Nat.lt_succ_of_le (of_decide_eq_true hin))
  | sws off val => exact spaceFault_eq_none_iff.mpr (Nat.lt_succ_of_le (of_decide_eq_true hin))
  | ven f => rfl
  | flp f => rfl
  | rsl => rfl
  | rfr c => exact Instr.faultIn_draw_eq_none hv (c := c) .rfr
  | tmd cat c => exact Instr.faultIn_draw_eq_none hv (.tmd (c := c) cat)
  | spd c => exact Instr.faultIn_draw_eq_none hv (c := c) .spd

/-! ## The mark and the responses of a run (60_exceptions.md R206) -/

/-- The mark is kept, and so are the responses, with at most one more after them. -/
def State.KeepsReports (s t : State) : Prop :=
  (s.faultMark = true → t.faultMark = true) ∧ ∃ new : List Response, t.responses = s.responses ++ new ∧ new.length ≤ 1

theorem State.keepsReports_refl (s : State) : s.KeepsReports s := ⟨id, [], by simp⟩

theorem State.keepsReports_takeFault (s : State) (f : Fault) : s.KeepsReports (s.takeFault f) :=
  ⟨fun _ => rfl, [.fault f], rfl, le_rfl⟩

theorem State.CompletedAs.keepsReports {s t : State} (h : s.CompletedAs t) : s.KeepsReports t := by
  obtain ⟨hmark, hnone | ⟨r, -, hone⟩⟩ := h
  · exact ⟨hmark.trans, [], by simpa using hnone⟩
  · exact ⟨hmark.trans, [r], hone, le_rfl⟩

/-! ## The statements -/

/-- Settles O9: the step takes the word and its fault, and no command raises IllegalCommand. -/
theorem illegalWordFaultsAndChangesNothing : Obligations.IllegalWordFaultsAndChangesNothing :=
  ⟨fun _ _ _ _ hp hd => (step_of_pending_cons hp).trans (runWord_of_illegal hd _),
    fun _ _ _ _ h hr => nomatch raises_of_exec_reports h hr⟩

/-- Settles O12: the command ends in its fault, which its checks find again, or in its effect, which reports none. -/
theorem commandCompletesOrFaultsChangingNothing : Obligations.CommandCompletesOrFaultsChangingNothing := by
  intro i s
  cases hf : Instr.faultIn s i with
  | none => exact ⟨_, exec_of_faultIn_none hf, .inl (Instr.effect_completedAs s i)⟩
  | some f =>
    have hagain : Instr.faultIn (s.takeFault f) i = some f := (Instr.faultIn_takeFault s f i).trans hf
    exact ⟨_, exec_of_faultIn_some hf, .inr ⟨f, rfl, exec_of_faultIn_some hagain⟩⟩

/-- Settles O13: the checks find nothing, and no effect unbuilds the palette. -/
theorem steadyStateHasNoFaults : Obligations.SteadyStateHasNoFaults := fun i s hv hi hin =>
  ⟨_, exec_of_faultIn_none (Instr.faultIn_eq_none_of_built hv hi hin), Instr.effect_completedAs s i,
    Instr.effect_penValid hv i⟩

/-- Settles O14: the index is checked first and alone, and no draw raises AddressingFault. -/
theorem outOfRangeIndexFaults : Obligations.OutOfRangeIndexFaults := by
  refine ⟨fun s off val h => ⟨?_, ?_⟩, fun s off val h => ⟨?_, ?_⟩, fun s pen h => ?_, ?_⟩
  · exact exec_of_faultIn_some (i := .twc off val) (spaceFault_of_ge h)
  · exact exec_of_faultIn_some (i := .twa off val) (spaceFault_of_ge h)
  · exact exec_of_faultIn_some (i := .swp off val) (spaceFault_of_ge h)
  · exact exec_of_faultIn_some (i := .sws off val) (spaceFault_of_ge h)
  · exact exec_of_faultIn_some (Instr.faultIn_prd_of_gt h)
  · rintro s t cat c sp index (h | h | h) hr
    all_goals exact nomatch raises_of_exec_reports h hr

/-- Settles O16: the recorded lengths are those of the wrong blobs, and PLD alone raises ConfigurationError. -/
theorem wrongPromSizeFaults : Obligations.WrongPromSizeFaults := by
  refine ⟨fun s h => exec_of_faultIn_some (i := .pld) (sizeFault_of_not_sized h), fun i s t a b hi h hr => ?_⟩
  cases raises_of_exec_reports h hr
  contradiction

/-- Settles O17: a fault sets the mark and is one response, an effect leaves the mark and sends at most one. -/
theorem faultMarkIsSticky : Obligations.FaultMarkIsSticky := fun _ _ =>
  step_keeps (R := State.KeepsReports) State.keepsReports_refl State.keepsReports_takeFault
    (fun s i => (Instr.effect_completedAs s i).keepsReports) (fun _ _ _ h => h)

/-- Settles O15: the palette is the only check of a draw, and of PRD once the pen is in its space. -/
theorem drawBeforePaletteFaults : Obligations.DrawBeforePaletteFaults := fun _ _ cat c hv =>
  ⟨fun hp => exec_of_faultIn_some (Instr.faultIn_prd_of_not_built hp hv),
    exec_of_faultIn_some (Instr.faultIn_draw_of_not_built hv (.tmd (c := c) cat)),
    exec_of_faultIn_some (Instr.faultIn_draw_of_not_built hv (c := c) .spd),
    exec_of_faultIn_some (Instr.faultIn_draw_of_not_built hv (c := c) .rfr)⟩

end Sys2Proof.Machine
end
